-- ==== Sys2Proof/Word.lean ====
section
/-! DEFINITION. The words the codec moves: bytes, the payload, a frame, the input ports, the output
record, and what a host presents in one transaction. -/

namespace Sys2Proof

/-- An 8-bit value; a *device address* is one too (00_scope.md R10, 20_memory.md R22). -/
abbrev Byte := BitVec 8

/-- The payload: exactly 8 bytes, numbered 0 to 7 (20_memory.md R24). -/
structure Payload where
  b0 : Byte
  b1 : Byte
  b2 : Byte
  b3 : Byte
  b4 : Byte
  b5 : Byte
  b6 : Byte
  b7 : Byte
  deriving DecidableEq, Repr, Inhabited

/-- The all-zero payload (30_encoding.md R41). -/
def Payload.zero : Payload := ⟨0, 0, 0, 0, 0, 0, 0, 0⟩

/-- A frame: extended flag, payload length, 29-bit identifier, payload (20_memory.md R30). -/
structure Frame where
  ext : BitVec 1
  len : BitVec 4
  id : BitVec 29
  data : Payload
  deriving DecidableEq, Repr, Inhabited

/-- The input ports (10_state.md R13), each an unsigned bit vector of the width given there. -/
structure Ports where
  /-- `cmd_valid` -/
  cmdValid : BitVec 1
  /-- `cmd_op` -/
  cmdOp : BitVec 4
  /-- `mode_in` -/
  modeIn : BitVec 8
  /-- `data16_in` -/
  data16In : BitVec 16
  /-- `id8_in` -/
  id8In : BitVec 8
  /-- `addr_in` -/
  addrIn : BitVec 8
  /-- `new_addr` -/
  newAddr : BitVec 8
  /-- `index_in` -/
  indexIn : BitVec 16
  /-- `val_f32` -/
  valF32 : BitVec 32
  /-- `val_u8` -/
  valU8 : BitVec 8
  /-- `rx_ext` -/
  rxExt : BitVec 1
  /-- `rx_len` -/
  rxLen : BitVec 4
  /-- `rx_id` -/
  rxId : BitVec 29
  /-- `rx_data[0..7]`; no op reads it -/
  rxData : Payload
  deriving DecidableEq, Repr, Inhabited

/-- Every port at 0: no command presented (`cmd_valid = 0`). -/
def Ports.zero : Ports :=
  ⟨0, 0, 0, 0, 0, 0, 0, 0, 0, 0, 0, 0, 0, Payload.zero⟩

/-- The output record `out` (10_state.md R14). -/
structure Out where
  /-- `tx_valid` -/
  txValid : BitVec 1
  /-- `tx_ext` -/
  txExt : BitVec 1
  /-- `tx_len` -/
  txLen : BitVec 4
  /-- `tx_id` -/
  txId : BitVec 29
  /-- `tx_data[0..7]` -/
  txData : Payload
  /-- `dec_valid` -/
  decValid : BitVec 1
  /-- `dec_mode` -/
  decMode : BitVec 5
  /-- `dec_data16` -/
  decData16 : BitVec 16
  /-- `dec_id8` -/
  decId8 : BitVec 8
  /-- `rx_is_reply` -/
  rxIsReply : BitVec 1
  /-- `rx_addr` -/
  rxAddr : BitVec 8
  /-- `cmd_err` -/
  cmdErr : BitVec 1
  deriving DecidableEq, Repr, Inhabited

/-- The frame kinds: the six opcode-table rows of format EXT_ID29 (30_encoding.md R43). -/
inductive FrameKind where
  | getIdProbe
  | setId
  | runEnable
  | writeOneF32
  | writeOneU8
  | getIdReply
  deriving DecidableEq, Repr

/-- What the host presents in one transaction.
`ports` is the spec's own transaction, format CMD (30_encoding.md R35).
`frame` is DESIGN CHOICE (log 3): a row of format EXT_ID29 written out as the frame it stands for. It
names its row because the identifier alone does not tell every row (R42, R43; log 4). -/
inductive Transaction where
  | ports (p : Ports)
  | frame (kind : FrameKind) (f : Frame)
  deriving DecidableEq, Repr

/-- The idle transaction, `IDLE` of 30_encoding.md R45, with every operand port at 0 (log 1). -/
def Transaction.idle : Transaction := .ports Ports.zero

end Sys2Proof
end

