-- ==== Sys2Proof/Config.lean ====
section
/-! DEFINITION. What is fixed for the hardware: its constants (10_state.md R19), the parameter indices the
host uses, and the two things the spec leaves open about settling, which are free. -/

namespace Sys2Proof.Config

/-- `MASTER_ID`, hardwired (00_scope.md R5). -/
def masterId : BitVec 8 := 0xFD

/-- `RESP_MARKER`, hardwired (00_scope.md R6). -/
def respMarker : BitVec 8 := 0xFE

/-- Mode of the GET_ID probe and reply (00_scope.md R7). -/
def modeGetId : BitVec 5 := 0x00

/-- Mode of RUN_ENABLE (00_scope.md R7). -/
def modeRunEnable : BitVec 5 := 0x03

/-- Mode of SET_ID (00_scope.md R7). -/
def modeSetId : BitVec 5 := 0x07

/-- Mode of WRITE_ONE (00_scope.md R7). -/
def modeWriteOne : BitVec 5 := 0x12

/-- The payload length of every frame the codec builds and of a reply (00_scope.md R9). -/
def frameLen : BitVec 4 := 8

/-- The value of `rx_addr` in O0, the source's "none found" sentinel (00_scope.md R10, 10_state.md R15). -/
def noneFound : BitVec 8 := 0xFF

/-- Parameter index RUNMODE: a host's name, not held in the codec (00_scope.md R8). -/
def runmode : BitVec 16 := 0x7005

/-- Parameter index LOC_REF (00_scope.md R8). -/
def locRef : BitVec 16 := 0x7016

/-- Parameter index LIMIT_SPD (00_scope.md R8). -/
def limitSpd : BitVec 16 := 0x7017

/-- `T_PD`, the OPEN propagation delay (00_scope.md R9, 70_reset_and_hazards.md R69). A free value (log 7). -/
opaque tPd : Nat

/-- What a host reads on `out` before `T_PD` has passed: unspecified, any value (70_reset_and_hazards.md
R64, 93_implementation_defined.md I5). A free value for each reading and time (log 7). -/
opaque unsettledOut : Nat → Nat → Out

end Sys2Proof.Config
end

