-- ==== Sys2Proof/Syntax.lean ====
section
/-! DEFINITION. The instructions: one constructor for each row of spec/opcode_table.json. -/

namespace Sys2Proof

/-- The nine commands (format CMD, 30_encoding.md R36), operands in the order of 30_encoding.md R45, and
the six frame kinds (format EXT_ID29, 30_encoding.md R43), operands named by the letters of the table. -/
inductive Instr where
  /-- ENCID `mode_in, data16_in, id8_in` (R46) -/
  | encid (mode : BitVec 8) (data16 : BitVec 16) (id8 : BitVec 8)
  /-- DECID `rx_id` (R47) -/
  | decid (id : BitVec 29)
  /-- GETID `addr_in` (R50) -/
  | getid (t : BitVec 8)
  /-- SETID `addr_in` (current), `new_addr` (R51) -/
  | setid (c n : BitVec 8)
  /-- RUNEN `addr_in` (R52) -/
  | runen (t : BitVec 8)
  /-- WRF32 `addr_in, index_in, val_f32` (R53) -/
  | wrf32 (t : BitVec 8) (index : BitVec 16) (f : BitVec 32)
  /-- WRU8 `addr_in, index_in, val_u8` (R54) -/
  | wru8 (t : BitVec 8) (index : BitVec 16) (value : BitVec 8)
  /-- CLASSIFY `rx_ext, rx_len, rx_id` (R55) -/
  | classify (ext : BitVec 1) (len : BitVec 4) (id : BitVec 29)
  /-- RSVD `cmd_op`, well formed for 0x8 to 0xF (R58) -/
  | rsvd (op : BitVec 4)
  /-- FRAME_GET_ID_PROBE, target `t` (R50) -/
  | frameGetIdProbe (t : BitVec 8)
  /-- FRAME_SET_ID, new address `n`, current address `c` (R51) -/
  | frameSetId (n c : BitVec 8)
  /-- FRAME_RUN_ENABLE, target `t` (R52) -/
  | frameRunEnable (t : BitVec 8)
  /-- FRAME_WRITE_ONE_F32, target `t`, payload `[index_lo, index_hi, 0, 0, f]` (R53) -/
  | frameWriteOneF32 (t : BitVec 8) (index : BitVec 16) (f : BitVec 32)
  /-- FRAME_WRITE_ONE_U8, target `t`, payload `[index_lo, index_hi, 0, 0, value, 0, 0, 0]` (R54) -/
  | frameWriteOneU8 (t : BitVec 8) (index : BitVec 16) (value : BitVec 8)
  /-- FRAME_GET_ID_REPLY, `x` not examined, discovered address `a` (R55) -/
  | frameGetIdReply (x a : BitVec 8)
  deriving DecidableEq, Repr

end Sys2Proof
end

