-- ==== Sys2Proof/Decode.lean ====
section
/-! DEFINITION. The decoder and, after it, the encoder. A command is the port values of one transaction
(30_encoding.md R35, R36), never bits of a command word; a frame kind is an identifier pattern with a
payload layout (R38 to R43). -/

namespace Sys2Proof

/-! ### Fields and payload layouts -/

/-- `byte(v, k)` is `v[8k+7:8k]` (00_scope.md R12). -/
def byteAt {w : Nat} (v : BitVec w) (k : Nat) : Byte := v.extractLsb' (8 * k) 8

/-- Payload byte `k` (20_memory.md R24). -/
def Payload.byte (d : Payload) (k : Fin 8) : Byte :=
  match k with
  | 0 => d.b0
  | 1 => d.b1
  | 2 => d.b2
  | 3 => d.b3
  | 4 => d.b4
  | 5 => d.b5
  | 6 => d.b6
  | 7 => d.b7

/-- The WRITE_ONE float layout: little-endian index in bytes 0 and 1, zeros in 2 and 3, the binary32
pattern little-endian in bytes 4 to 7 (20_memory.md R25, R26; 30_encoding.md R41). -/
def payloadF32 (index : BitVec 16) (f : BitVec 32) : Payload :=
  ⟨byteAt index 0, byteAt index 1, 0, 0, byteAt f 0, byteAt f 1, byteAt f 2, byteAt f 3⟩

/-- The WRITE_ONE byte layout: as the float's, but the value in byte 4 and zeros in 5 to 7
(20_memory.md R25, R27; 30_encoding.md R41). -/
def payloadU8 (index : BitVec 16) (value : BitVec 8) : Payload :=
  ⟨byteAt index 0, byteAt index 1, 0, 0, value, 0, 0, 0⟩

/-- The parameter index a payload carries, bytes 0 and 1 little-endian (20_memory.md R25). -/
def Payload.index (d : Payload) : BitVec 16 := d.b1 ++ d.b0

/-- Bytes 4 to 7 read little-endian (20_memory.md R26). -/
def Payload.f32 (d : Payload) : BitVec 32 := d.b7 ++ d.b6 ++ d.b5 ++ d.b4

/-! ### The frame-kind patterns -/

/-- `match` of each row (30_encoding.md R43). -/
def FrameKind.matchBits : FrameKind → BitVec 29
  | .getIdProbe => 0x00FD0000
  | .setId => 0x0700FD00
  | .runEnable => 0x03FD0000
  | .writeOneF32 => 0x12FD0000
  | .writeOneU8 => 0x12FD0000
  | .getIdReply => 0x000000FE

/-- `mask` of each row (30_encoding.md R43). -/
def FrameKind.maskBits : FrameKind → BitVec 29
  | .getIdProbe => 0x1FFFFF00
  | .setId => 0x1F00FF00
  | .runEnable => 0x1FFFFF00
  | .writeOneF32 => 0x1FFFFF00
  | .writeOneU8 => 0x1FFFFF00
  | .getIdReply => 0x1F0000FF

/-- `id & mask == match` (30_encoding.md R43). -/
def FrameKind.admits (k : FrameKind) (id : BitVec 29) : Bool := id &&& k.maskBits == k.matchBits

/-- The identifier of a kind whose one operand is the target in bits 7..0 (30_encoding.md R43). -/
def targetId (k : FrameKind) (t : BitVec 8) : BitVec 29 := k.matchBits ||| t.setWidth 29

/-- The identifier `07 nn FD cc` of a SET_ID frame (30_encoding.md R43). -/
def setIdId (n c : BitVec 8) : BitVec 29 :=
  FrameKind.setId.matchBits ||| (n.setWidth 29 <<< 16) ||| c.setWidth 29

/-- The identifier `00 xx aa FE` of a GET_ID reply (30_encoding.md R43). -/
def replyId (x a : BitVec 8) : BitVec 29 :=
  FrameKind.getIdReply.matchBits ||| (x.setWidth 29 <<< 16) ||| (a.setWidth 29 <<< 8)

/-- A frame as every kind has it: extended, 8 payload bytes (30_encoding.md R39, 42_rx_classify.md R55). -/
def extFrame (id : BitVec 29) (data : Payload) : Frame := ⟨1, Config.frameLen, id, data⟩

/-- The rows in the table's order. -/
def FrameKind.all : List FrameKind :=
  [.getIdProbe, .setId, .runEnable, .writeOneF32, .writeOneU8, .getIdReply]

/-- The first row, in the table's order, whose pattern an identifier standing alone fits. DESIGN CHOICE (log 4):
WRITE_ONE float before byte, which no identifier tells apart (30_encoding.md R42), and probe before
reply at 0x00FD00FE (R43). -/
def FrameKind.ofId (id : BitVec 29) : Option FrameKind :=
  FrameKind.all.find? (fun k => k.admits id)

/-! ### The decoder -/

/-- Why a transaction carries no instruction. -/
inductive DecodeError where
  /-- `cmd_valid = 0`: no command is presented (10_state.md R15). Safe: step drives O0, as the spec says. -/
  | idle
  /-- A written-out frame without an extended identifier: no row has one (30_encoding.md R39). Safe. -/
  | notExtended
  /-- A written-out frame whose payload is not 8 bytes: no row has one (30_encoding.md R39). Safe. -/
  | wrongLength
  /-- A written-out frame whose identifier is outside the pattern of the row it names (R43). Safe. -/
  | wrongIdentifier
  /-- A written-out frame whose payload is outside the layout of the row it names (R41). Safe. -/
  | wrongPayload
  deriving DecidableEq, Repr

/-- The instruction on the input ports: `cmd_op` selects it, the named ports are its operands, and ports it
does not use are ignored (10_state.md R13, 30_encoding.md R36, R37). -/
def decodePorts (p : Ports) : Except DecodeError Instr :=
  if p.cmdValid = 0 then .error .idle
  else
    match p.cmdOp.toNat with
    | 0 => .ok (.encid p.modeIn p.data16In p.id8In)
    | 1 => .ok (.decid p.rxId)
    | 2 => .ok (.getid p.addrIn)
    | 3 => .ok (.setid p.addrIn p.newAddr)
    | 4 => .ok (.runen p.addrIn)
    | 5 => .ok (.wrf32 p.addrIn p.indexIn p.valF32)
    | 6 => .ok (.wru8 p.addrIn p.indexIn p.valU8)
    | 7 => .ok (.classify p.rxExt p.rxLen p.rxId)
    | _ => .ok (.rsvd p.cmdOp)

/-- The payload a row's layout admits (30_encoding.md R41); a reply's payload is not examined. -/
def FrameKind.admitsPayload (k : FrameKind) (d : Payload) : Bool :=
  match k with
  | .getIdProbe => d == Payload.zero
  | .setId => d == Payload.zero
  | .runEnable => d == Payload.zero
  | .writeOneF32 => d.b2 == 0 && d.b3 == 0
  | .writeOneU8 => d.b2 == 0 && d.b3 == 0 && d.b5 == 0 && d.b6 == 0 && d.b7 == 0
  | .getIdReply => true

/-- The instruction a row reads from an identifier and a payload that fit it (30_encoding.md R41, R43). -/
def FrameKind.read (k : FrameKind) (id : BitVec 29) (d : Payload) : Instr :=
  match k with
  | .getIdProbe => .frameGetIdProbe (byteAt id 0)
  | .setId => .frameSetId (byteAt id 2) (byteAt id 0)
  | .runEnable => .frameRunEnable (byteAt id 0)
  | .writeOneF32 => .frameWriteOneF32 (byteAt id 0) d.index d.f32
  | .writeOneU8 => .frameWriteOneU8 (byteAt id 0) d.index d.b4
  | .getIdReply => .frameGetIdReply (byteAt id 2) (byteAt id 1)

/-- The instruction of a frame written out as an instance of the row `k`; a frame outside the row does not fall
through to another row. -/
def decodeFrame (k : FrameKind) (f : Frame) : Except DecodeError Instr :=
  if f.ext ≠ 1 then .error .notExtended
  else if f.len ≠ Config.frameLen then .error .wrongLength
  else if k.admits f.id = false then .error .wrongIdentifier
  else if k.admitsPayload f.data = false then .error .wrongPayload
  else .ok (k.read f.id f.data)

/-- The decoder: total, on whatever a transaction presents. -/
def decode : Transaction → Except DecodeError Instr
  | .ports p => decodePorts p
  | .frame k f => decodeFrame k f

/-! ### The encoder -/

/-- The ports of a command with op `op`, its operand ports still 0. -/
def Ports.command (op : BitVec 4) : Ports := { Ports.zero with cmdValid := 1, cmdOp := op }

/-- The transaction that presents an instruction; ports a command does not use are 0. A reply's payload, which
no rule examines, is written as zeros. -/
def encode : Instr → Transaction
  | .encid m d i => .ports { Ports.command 0x0 with modeIn := m, data16In := d, id8In := i }
  | .decid id => .ports { Ports.command 0x1 with rxId := id }
  | .getid t => .ports { Ports.command 0x2 with addrIn := t }
  | .setid c n => .ports { Ports.command 0x3 with addrIn := c, newAddr := n }
  | .runen t => .ports { Ports.command 0x4 with addrIn := t }
  | .wrf32 t x f => .ports { Ports.command 0x5 with addrIn := t, indexIn := x, valF32 := f }
  | .wru8 t x v => .ports { Ports.command 0x6 with addrIn := t, indexIn := x, valU8 := v }
  | .classify e l id => .ports { Ports.command 0x7 with rxExt := e, rxLen := l, rxId := id }
  | .rsvd op => .ports (Ports.command op)
  | .frameGetIdProbe t => .frame .getIdProbe (extFrame (targetId .getIdProbe t) Payload.zero)
  | .frameSetId n c => .frame .setId (extFrame (setIdId n c) Payload.zero)
  | .frameRunEnable t => .frame .runEnable (extFrame (targetId .runEnable t) Payload.zero)
  | .frameWriteOneF32 t x f =>
    .frame .writeOneF32 (extFrame (targetId .writeOneF32 t) (payloadF32 x f))
  | .frameWriteOneU8 t x v =>
    .frame .writeOneU8 (extFrame (targetId .writeOneU8 t) (payloadU8 x v))
  | .frameGetIdReply x a => .frame .getIdReply (extFrame (replyId x a) Payload.zero)

/-! ### Words as the opcode table numbers them -/

/-- The transaction of a table word: up to 8 bits it is a `cmd_op` value (format CMD) with every operand port
at 0; a wider word is a 29-bit identifier (format EXT_ID29) of an extended frame with 8 zero payload
bytes, read as the first row it fits (log 4).
DESIGN CHOICE (log 6): of a word wider than its field, which no port can carry (10_state.md R13), only the
low 4 or 29 bits are presented, so that `tableTransaction 8 0x12` presents GETID. decodeTableWord has no
instruction for such a word. -/
def tableTransaction (nbits w : Nat) : Transaction :=
  if nbits ≤ 8 then .ports (Ports.command (BitVec.ofNat 4 w))
  else
    .frame ((FrameKind.ofId (BitVec.ofNat 29 w)).getD .getIdProbe)
      (extFrame (BitVec.ofNat 29 w) Payload.zero)

/-- The instruction the decoder reads from a table word. A word wider than its field is none: a wider value cannot
be presented (10_state.md R13), although tableTransaction, being total, cuts it to the field (log 6). -/
def decodeTableWord (nbits w : Nat) : Option Instr :=
  if (if nbits ≤ 8 then w < 2 ^ 4 else w < 2 ^ 29) then (decode (tableTransaction nbits w)).toOption
  else none

end Sys2Proof
end

