-- ==== Sys2Proof/Machine/Operands.lean ====
section
/-! DEFINITION. The operand forms: how identifiers are packed and unpacked and how `data16` is assembled.
Every operand is zero-extended; nothing is signed or scaled (30_encoding.md R40). -/

namespace Sys2Proof.Machine

/-- The mode field of a raw 8-bit mode: masked to 5 bits, `mode & 0x1F` (40_identifier.md R46). -/
def maskMode (mode : BitVec 8) : BitVec 5 := (mode &&& 0x1F).setWidth 5

/-- `ID(mode, data16, id8) = (mode << 24) | (data16 << 8) | id8`, 29 bits (40_identifier.md R46,
41_frame_build.md). -/
def packId (mode : BitVec 5) (data16 : BitVec 16) (id8 : BitVec 8) : BitVec 29 :=
  (mode.setWidth 29 <<< 24) ||| (data16.setWidth 29 <<< 8) ||| id8.setWidth 29

/-- `mode = (id >> 24) & 0x1F` (40_identifier.md R47). -/
def idMode (id : BitVec 29) : BitVec 5 := ((id >>> 24) &&& 0x1F).setWidth 5

/-- `data16 = (id >> 8) & 0xFFFF` (40_identifier.md R47). -/
def idData16 (id : BitVec 29) : BitVec 16 := ((id >>> 8) &&& 0xFFFF).setWidth 16

/-- `id8 = id & 0xFF` (40_identifier.md R47). -/
def idId8 (id : BitVec 29) : BitVec 8 := (id &&& 0xFF).setWidth 8

/-- `(MASTER_ID << 8) | 0`, the `data16` of every outbound kind but SET_ID (30_encoding.md R40). -/
def masterData16 : BitVec 16 := (Config.masterId.setWidth 16 <<< 8) ||| 0

/-- `(new_addr << 8) | MASTER_ID`, the `data16` of SET_ID (30_encoding.md R40). -/
def setIdData16 (n : BitVec 8) : BitVec 16 := (n.setWidth 16 <<< 8) ||| Config.masterId.setWidth 16

/-- The discovered device address, `data16 & 0xFF` (42_rx_classify.md R55). -/
def replyAddr (data16 : BitVec 16) : BitVec 8 := (data16 &&& 0xFF).setWidth 8

end Sys2Proof.Machine
end

