-- ==== Sys2Proof/Machine/Flags.lean ====
section
/-! DEFINITION. The conditions behind the one-bit outputs. The codec has no flags (10_state.md R18); the one
output bit computed from operand values is `rx_is_reply`. -/

namespace Sys2Proof.Machine

/-- An inbound frame qualifies as a GET_ID reply: extended identifier, 8 payload bytes, mode 0x00, `id8` the
marker; these four conditions and no other (42_rx_classify.md R55, R56). -/
def qualifies (ext : BitVec 1) (len : BitVec 4) (id : BitVec 29) : Bool :=
  ext == 1 && len == Config.frameLen && idMode id == Config.modeGetId &&
    idId8 id == Config.respMarker

end Sys2Proof.Machine
end

