-- ==== Sys2Proof/Machine/Record.lean ====
section
/-! DEFINITION. What an op writes on the output record. Each record starts from O0 and names the fields it writes
(10_state.md R15). `errorOut` is the error output of a reserved op. -/

namespace Sys2Proof.Machine

/-- The idle output record O0: every field zero, except `rx_addr = 0xFF` (10_state.md R15). -/
def outIdle : Out :=
  { txValid := 0, txExt := 0, txLen := 0, txId := 0, txData := Payload.zero
    decValid := 0, decMode := 0, decData16 := 0, decId8 := 0
    rxIsReply := 0, rxAddr := Config.noneFound, cmdErr := 0 }

/-- O0 with a frame on `tx_*`, whole (20_memory.md R30). -/
def sendOut (f : Frame) : Out :=
  { outIdle with txValid := 1, txExt := f.ext, txLen := f.len, txId := f.id, txData := f.data }

/-- O0 with the three decoded fields of an identifier (40_identifier.md R47). -/
def decodedOut (id : BitVec 29) : Out :=
  { outIdle with decValid := 1, decMode := idMode id, decData16 := idData16 id, decId8 := idId8 id }

/-- The decoded fields and the classification of an inbound frame (42_rx_classify.md R55). -/
def classifiedOut (ext : BitVec 1) (len : BitVec 4) (id : BitVec 29) : Out :=
  if qualifies ext len id then
    { decodedOut id with rxIsReply := 1, rxAddr := replyAddr (idData16 id) }
  else decodedOut id

/-- O0 with `cmd_err = 1`: the output of a reserved op, not sticky (60_exceptions.md R58). -/
def errorOut : Out := { outIdle with cmdErr := 1 }

/-- The frame a builder puts on `tx_*`: extended, length 8 (30_encoding.md R39), the identifier packed from
its fields. -/
def builtFrame (mode : BitVec 5) (data16 : BitVec 16) (id8 : BitVec 8) (data : Payload) : Frame :=
  extFrame (packId mode data16 id8) data

end Sys2Proof.Machine
end

