-- ==== Sys2Proof/Machine/State.lean ====
section
/-! DEFINITION. The state as plain data, the reasons a step can stop, and the state after reset. The codec
stores nothing (10_state.md R16): what the spec names is its input ports, its output record and its
constants, and the state is what stands on them. -/

namespace Sys2Proof.Machine

/-- The machine's state. -/
structure State where
  /-- What the host presents now: the input ports (10_state.md R13), or a frame kind written out (log 3). -/
  present : Transaction
  /-- What the host has yet to present, first one first: the sequence of commands of 10_state.md R16 and
  20_memory.md R31. The model's own field (log 2). -/
  queue : List Transaction
  /-- The output record (10_state.md R14). -/
  out : Out
  deriving DecidableEq, Repr

/-- The codec raises no exception and nothing faults (60_exceptions.md R57): there is no fault. -/
inductive Fault
  deriving DecidableEq, Repr

/-- Why a step is refused. -/
inductive Refusal where
  /-- An instruction without a meaning, raised by exec's arm. Safe. No arm raises it. -/
  | notModelled (mnemonic : String)
  /-- A transaction of the model's frame form whose frame does not fit the row it names, raised by step
  (log 5). Safe: the spec has no such transaction, and no transaction on the input ports is refused. -/
  | frameRejected (why : DecodeError)
  deriving DecidableEq, Repr

/-- Power-up: nothing is presented and `out` is O0 (70_reset_and_hazards.md R63, R64). The codec has no reset
input and no stored reset state; that the idle ports stand at 0 and that nothing is queued are DESIGN
CHOICES (log 1, log 2). -/
def State.reset : State := { present := Transaction.idle, queue := [], out := outIdle }

end Sys2Proof.Machine
end

