-- ==== Sys2Proof/Machine/Ops.lean ====
section
/-! DEFINITION. The named operations on the state: how a record is driven, how a transaction comes to stand on the
ports, and when a host may read `out`. There is no memory (20_memory.md R22) and no exception to take or
return from (60_exceptions.md R57, R60). -/

namespace Sys2Proof.Machine

/-- Drives the output record; nothing else is stored or changed (10_state.md R16). -/
def State.drive (s : State) (o : Out) : State := { s with out := o }

/-- The next transaction the host presents stands on the ports; when it has none left it presents the idle
transaction (log 2). -/
def State.presentNext (s : State) : State :=
  match s.queue with
  | [] => { s with present := Transaction.idle }
  | t :: q => { s with present := t, queue := q }

/-- What a host reads on `out` at `elapsed` after its inputs are stable: a free value until `T_PD` has passed,
then the record (70_reset_and_hazards.md R64, R65, R69; log 7). -/
def State.readOut (s : State) (elapsed reading : Nat) : Out :=
  if Config.tPd ≤ elapsed then s.out else Config.unsettledOut reading elapsed

end Sys2Proof.Machine
end

