-- ==== Sys2Proof/Machine/FrameBuild.lean ====
section
/-! DEFINITION. The outbound frame builders: GETID, SETID, RUNEN, WRF32, WRU8 (41_frame_build.md). No builder
checks the range of an address. -/

namespace Sys2Proof.Machine

/-- GETID (41_frame_build.md R50). -/
def execGetid (t : BitVec 8) (s : State) : Host.Outcome State Fault Refusal :=
  .next (s.drive (sendOut (builtFrame Config.modeGetId masterData16 t Payload.zero)))

/-- SETID, current address `c`, new address `n` (41_frame_build.md R51). -/
def execSetid (c n : BitVec 8) (s : State) : Host.Outcome State Fault Refusal :=
  .next (s.drive (sendOut (builtFrame Config.modeSetId (setIdData16 n) c Payload.zero)))

/-- RUNEN (41_frame_build.md R52). -/
def execRunen (t : BitVec 8) (s : State) : Host.Outcome State Fault Refusal :=
  .next (s.drive (sendOut (builtFrame Config.modeRunEnable masterData16 t Payload.zero)))

/-- WRF32 (41_frame_build.md R53): the binary32 pattern is copied bit for bit. -/
def execWrf32 (t : BitVec 8) (index : BitVec 16) (f : BitVec 32) (s : State) :
    Host.Outcome State Fault Refusal :=
  .next (s.drive (sendOut (builtFrame Config.modeWriteOne masterData16 t (payloadF32 index f))))

/-- WRU8 (41_frame_build.md R54). -/
def execWru8 (t : BitVec 8) (index : BitVec 16) (value : BitVec 8) (s : State) :
    Host.Outcome State Fault Refusal :=
  .next (s.drive (sendOut (builtFrame Config.modeWriteOne masterData16 t (payloadU8 index value))))

end Sys2Proof.Machine
end

