-- ==== Sys2Proof/Machine/FrameKinds.lean ====
section
/-! DEFINITION. The opcode-table rows of format EXT_ID29. DESIGN CHOICE (log 3): a frame kind means the output
record its row's own rule gives for that frame: for the five outbound kinds the frame on `tx_*`, its
identifier written by the row's pattern (30_encoding.md R43); for the inbound one its classification. -/

namespace Sys2Proof.Machine

/-- FRAME_GET_ID_PROBE (41_frame_build.md R50, 30_encoding.md R43). -/
def execFrameGetIdProbe (t : BitVec 8) (s : State) : Host.Outcome State Fault Refusal :=
  .next (s.drive (sendOut (extFrame (targetId .getIdProbe t) Payload.zero)))

/-- FRAME_SET_ID (41_frame_build.md R51, 30_encoding.md R43). -/
def execFrameSetId (n c : BitVec 8) (s : State) : Host.Outcome State Fault Refusal :=
  .next (s.drive (sendOut (extFrame (setIdId n c) Payload.zero)))

/-- FRAME_RUN_ENABLE (41_frame_build.md R52, 30_encoding.md R43). -/
def execFrameRunEnable (t : BitVec 8) (s : State) : Host.Outcome State Fault Refusal :=
  .next (s.drive (sendOut (extFrame (targetId .runEnable t) Payload.zero)))

/-- FRAME_WRITE_ONE_F32 (41_frame_build.md R53, 30_encoding.md R41, R43). -/
def execFrameWriteOneF32 (t : BitVec 8) (index : BitVec 16) (f : BitVec 32) (s : State) :
    Host.Outcome State Fault Refusal :=
  .next (s.drive (sendOut (extFrame (targetId .writeOneF32 t) (payloadF32 index f))))

/-- FRAME_WRITE_ONE_U8 (41_frame_build.md R54, 30_encoding.md R41, R43). -/
def execFrameWriteOneU8 (t : BitVec 8) (index : BitVec 16) (value : BitVec 8) (s : State) :
    Host.Outcome State Fault Refusal :=
  .next (s.drive (sendOut (extFrame (targetId .writeOneU8 t) (payloadU8 index value))))

/-- FRAME_GET_ID_REPLY (42_rx_classify.md R55, 30_encoding.md R43): an inbound extended frame of length 8 with
the identifier `00 xx aa FE`. -/
def execFrameGetIdReply (x a : BitVec 8) (s : State) : Host.Outcome State Fault Refusal :=
  .next (s.drive (classifiedOut 1 Config.frameLen (replyId x a)))

end Sys2Proof.Machine
end

