-- ==== Sys2Proof/Machine/Identifier.lean ====
section
/-! DEFINITION. Identifier packing: ENCID and DECID (40_identifier.md). -/

namespace Sys2Proof.Machine

/-- ENCID (40_identifier.md R46): the packed identifier in an extended frame with a zero payload. -/
def execEncid (mode : BitVec 8) (data16 : BitVec 16) (id8 : BitVec 8) (s : State) :
    Host.Outcome State Fault Refusal :=
  .next (s.drive (sendOut (builtFrame (maskMode mode) data16 id8 Payload.zero)))

/-- DECID (40_identifier.md R47): the three fields; it does not classify. -/
def execDecid (id : BitVec 29) (s : State) : Host.Outcome State Fault Refusal :=
  .next (s.drive (decodedOut id))

end Sys2Proof.Machine
end

