-- ==== Sys2Proof/Machine/Reserved.lean ====
section
/-! DEFINITION. The reserved ops 0x8 to 0xF (60_exceptions.md R58). -/

namespace Sys2Proof.Machine

/-- RSVD (60_exceptions.md R58): O0 with `cmd_err = 1`, the same for every reserved op. -/
def execRsvd (_op : BitVec 4) (s : State) : Host.Outcome State Fault Refusal :=
  .next (s.drive errorOut)

end Sys2Proof.Machine
end

