-- ==== Sys2Proof/Machine/RxClassify.lean ====
section
/-! DEFINITION. Inbound classification: CLASSIFY (42_rx_classify.md). -/

namespace Sys2Proof.Machine

/-- CLASSIFY (42_rx_classify.md R55): the decoded fields, and whether the frame is a GET_ID reply. The payload
is not read. -/
def execClassify (ext : BitVec 1) (len : BitVec 4) (id : BitVec 29) (s : State) :
    Host.Outcome State Fault Refusal :=
  .next (s.drive (classifiedOut ext len id))

end Sys2Proof.Machine
end

