-- ==== Sys2Proof/Machine/Dispatch.lean ====
section
/-! DEFINITION. One arm per instruction, each one call of its meaning. -/

namespace Sys2Proof.Machine

def exec (i : Instr) (s : State) : Host.Outcome State Fault Refusal :=
  match i with
  | .encid mode data16 id8 => Sys2Proof.Machine.execEncid mode data16 id8 s
  | .decid id => Sys2Proof.Machine.execDecid id s
  | .getid t => Sys2Proof.Machine.execGetid t s
  | .setid c n => Sys2Proof.Machine.execSetid c n s
  | .runen t => Sys2Proof.Machine.execRunen t s
  | .wrf32 t index f => Sys2Proof.Machine.execWrf32 t index f s
  | .wru8 t index value => Sys2Proof.Machine.execWru8 t index value s
  | .classify ext len id => Sys2Proof.Machine.execClassify ext len id s
  | .rsvd op => Sys2Proof.Machine.execRsvd op s
  | .frameGetIdProbe t => Sys2Proof.Machine.execFrameGetIdProbe t s
  | .frameSetId n c => Sys2Proof.Machine.execFrameSetId n c s
  | .frameRunEnable t => Sys2Proof.Machine.execFrameRunEnable t s
  | .frameWriteOneF32 t index f => Sys2Proof.Machine.execFrameWriteOneF32 t index f s
  | .frameWriteOneU8 t index value => Sys2Proof.Machine.execFrameWriteOneU8 t index value s
  | .frameGetIdReply x a => Sys2Proof.Machine.execFrameGetIdReply x a s

end Sys2Proof.Machine
end

