-- ==== Sys2Proof/Machine/Step.lean ====
section
/-! DEFINITION. One step: the host presents its next transaction and the codec drives `out` for it. -/

namespace Sys2Proof.Machine

/-- The codec's answer to the transaction that stands on its ports: the instruction's meaning; O0 when no command
is presented (10_state.md R15); a written-out frame that does not fit its row is refused (log 5). -/
def respond (s : State) : Host.Outcome State Fault Refusal :=
  match decode s.present with
  | .ok i => exec i s
  | .error .idle => .next (s.drive outIdle)
  | .error why => .refused (.frameRejected why)

/-- One command per step (70_reset_and_hazards.md R69), in the order the host presents them (20_memory.md R31). -/
def step (s : State) : Host.Outcome State Fault Refusal := respond s.presentNext

/-- `s` with a table word as the next transaction the host presents (log 6). Of a word wider than its field only the
low 4 or 29 bits are presented (DESIGN CHOICE, log 6). -/
def State.withFetchWord (s : State) (nbits w : Nat) : State :=
  { s with queue := tableTransaction nbits w :: s.queue }

end Sys2Proof.Machine
end

