-- ==== Sys2Proof/Machine/Assembly.lean ====
section
/-! DEFINITION. The assembler lines of 30_encoding.md R45: a mnemonic and its operands, each a number, and the
transaction a line stands for. A number wider than its port cannot be presented (10_state.md R13). -/

namespace Sys2Proof.Machine

/-- A line: the commands in the operand order of R45, `IDLE`, `RSVD op`. -/
inductive AsmLine where
  | encid (mode data16 id8 : Nat)
  | decid (id : Nat)
  | getid (t : Nat)
  | setid (c n : Nat)
  | runen (t : Nat)
  | wrf32 (t index f32bits : Nat)
  | wru8 (t index value : Nat)
  | classify (ext len id : Nat)
  | idle
  | rsvd (op : Nat)
  deriving DecidableEq, Repr

/-- A number on a port of width `w`, where it fits (10_state.md R13, 92_eei_decisions.md D4, D5). -/
def onPort (w n : Nat) : Option (BitVec w) := if n < 2 ^ w then some (BitVec.ofNat w n) else none

/-- The instruction a line names, where every operand fits its port; an `RSVD` line names a reserved op. -/
def AsmLine.instr : AsmLine → Option Instr
  | .encid m d i => do return .encid (← onPort 8 m) (← onPort 16 d) (← onPort 8 i)
  | .decid id => do return .decid (← onPort 29 id)
  | .getid t => do return .getid (← onPort 8 t)
  | .setid c n => do return .setid (← onPort 8 c) (← onPort 8 n)
  | .runen t => do return .runen (← onPort 8 t)
  | .wrf32 t x f => do return .wrf32 (← onPort 8 t) (← onPort 16 x) (← onPort 32 f)
  | .wru8 t x v => do return .wru8 (← onPort 8 t) (← onPort 16 x) (← onPort 8 v)
  | .classify e l id => do return .classify (← onPort 1 e) (← onPort 4 l) (← onPort 29 id)
  | .idle => none
  | .rsvd op => if 8 ≤ op then do return .rsvd (← onPort 4 op) else none

/-- The transaction a line stands for; `IDLE` is the idle transaction. -/
def AsmLine.assemble (l : AsmLine) : Option Transaction :=
  match l with
  | .idle => some Transaction.idle
  | .encid _ _ _ | .decid _ | .getid _ | .setid _ _ | .runen _ | .wrf32 _ _ _ | .wru8 _ _ _
  | .classify _ _ _ | .rsvd _ => l.instr.map encode

end Sys2Proof.Machine
end

