-- ==== Sys2Proof/Machine/Codec.lean ====
section
/-! DEFINITION. The function `Codec` of 10_state.md R16, written a second time straight from the ports to the
output record: identifiers by concatenation of their fields (30_encoding.md R38) and constants in
place. Claims hold the machine against it; the machine does not call it. -/

namespace Sys2Proof.Machine

/-- The output with a frame of identifier `{mode, data16, id8}` on `tx_*`, every other field O0's. -/
def txRecord (mode : BitVec 5) (data16 : BitVec 16) (id8 : BitVec 8) (data : Payload) : Out :=
  { txValid := 1, txExt := 1, txLen := 8, txId := mode ++ data16 ++ id8, txData := data
    decValid := 0, decMode := 0, decData16 := 0, decId8 := 0
    rxIsReply := 0, rxAddr := 0xFF, cmdErr := 0 }

/-- The output with an identifier's fields on `dec_*` and a classification, every other field O0's. -/
def rxRecord (id : BitVec 29) (isReply : BitVec 1) (addr : BitVec 8) : Out :=
  { txValid := 0, txExt := 0, txLen := 0, txId := 0, txData := Payload.zero
    decValid := 1, decMode := id.extractLsb 28 24, decData16 := id.extractLsb 23 8
    decId8 := id.extractLsb 7 0, rxIsReply := isReply, rxAddr := addr, cmdErr := 0 }

/-- The output of CLASSIFY: the four conditions of 42_rx_classify.md R55 on slices of the identifier. -/
def classifyRecord (ext : BitVec 1) (len : BitVec 4) (id : BitVec 29) : Out :=
  if ext = 1 ∧ len = 8 ∧ id.extractLsb 28 24 = 0x00#5 ∧ id.extractLsb 7 0 = 0xFE#8 then
    rxRecord id 1 (id.extractLsb 15 8)
  else rxRecord id 0 0xFF

/-- `Codec` (10_state.md R16): the output record as a function of the present inputs alone. -/
def codec (p : Ports) : Out :=
  if p.cmdValid = 0 then outIdle
  else
    match p.cmdOp.toNat with
    | 0 => txRecord (p.modeIn.extractLsb 4 0) p.data16In p.id8In Payload.zero
    | 1 => rxRecord p.rxId 0 0xFF
    | 2 => txRecord 0x00 0xFD00 p.addrIn Payload.zero
    | 3 => txRecord 0x07 (p.newAddr ++ 0xFD#8) p.addrIn Payload.zero
    | 4 => txRecord 0x03 0xFD00 p.addrIn Payload.zero
    | 5 =>
      txRecord 0x12 0xFD00 p.addrIn
        ⟨p.indexIn.extractLsb 7 0, p.indexIn.extractLsb 15 8, 0, 0, p.valF32.extractLsb 7 0,
          p.valF32.extractLsb 15 8, p.valF32.extractLsb 23 16, p.valF32.extractLsb 31 24⟩
    | 6 =>
      txRecord 0x12 0xFD00 p.addrIn
        ⟨p.indexIn.extractLsb 7 0, p.indexIn.extractLsb 15 8, 0, 0, p.valU8, 0, 0, 0⟩
    | 7 => classifyRecord p.rxExt p.rxLen p.rxId
    | _ => { outIdle with cmdErr := 1 }

/-- A frame is an instance of a row: the fields the row fixes, on slices of the identifier and bytes of the
payload (30_encoding.md R39, R41, R43). -/
def FrameFits (k : FrameKind) (f : Frame) : Prop :=
  f.ext = 1 ∧ f.len = 8 ∧
    match k with
    | .getIdProbe => f.id.extractLsb 28 8 = 0x00FD00#21 ∧ f.data = Payload.zero
    | .setId =>
      f.id.extractLsb 28 24 = 0x07#5 ∧ f.id.extractLsb 15 8 = 0xFD#8 ∧ f.data = Payload.zero
    | .runEnable => f.id.extractLsb 28 8 = 0x03FD00#21 ∧ f.data = Payload.zero
    | .writeOneF32 => f.id.extractLsb 28 8 = 0x12FD00#21 ∧ f.data.b2 = 0 ∧ f.data.b3 = 0
    | .writeOneU8 =>
      f.id.extractLsb 28 8 = 0x12FD00#21 ∧ f.data.b2 = 0 ∧ f.data.b3 = 0 ∧ f.data.b5 = 0 ∧
        f.data.b6 = 0 ∧ f.data.b7 = 0
    | .getIdReply => f.id.extractLsb 28 24 = 0x00#5 ∧ f.id.extractLsb 7 0 = 0xFE#8

/-- The output of a written-out frame that fits its row (log 3): an outbound one stands on `tx_*` as it is; a
reply is classified. -/
def frameRecord (k : FrameKind) (f : Frame) : Out :=
  match k with
  | .getIdReply => classifyRecord f.ext f.len f.id
  | .getIdProbe | .setId | .runEnable | .writeOneF32 | .writeOneU8 =>
    { outIdle with txValid := 1, txExt := f.ext, txLen := f.len, txId := f.id, txData := f.data }

end Sys2Proof.Machine
end

