-- ==== Sys2Proof/Safety.lean ====
section
/-! DEFINITION. The terms claims use: runs and what they put out, the frames a host sends, legal output records,
the host's obligations as premises. -/

namespace Sys2Proof

/-- The frame a host sends for an output record: only when `tx_valid = 1`, copying the four `tx_*` fields
(70_reset_and_hazards.md R67). -/
def Out.sent (o : Out) : Option Frame :=
  if o.txValid = 1 then some ⟨o.txExt, o.txLen, o.txId, o.txData⟩ else none

/-- The device address a host takes from an output record: by `rx_is_reply`, not by the value of `rx_addr`
(70_reset_and_hazards.md R67). -/
def Out.discovered (o : Out) : Option Byte := if o.rxIsReply = 1 then some o.rxAddr else none

/-- A record a command can leave: unused fields at O0 (10_state.md R15), every frame extended and of length 8
(30_encoding.md R39), at most one of frame, decoded fields and error, and a reply only as
42_rx_classify.md R55 has it. -/
abbrev Out.Legal (o : Out) : Prop :=
  (o.txValid = 1 → o.txExt = 1 ∧ o.txLen = 8 ∧ o.decValid = 0 ∧ o.cmdErr = 0) ∧
  (o.txValid = 0 → o.txExt = 0 ∧ o.txLen = 0 ∧ o.txId = 0 ∧ o.txData = Payload.zero) ∧
  (o.decValid = 1 → o.cmdErr = 0) ∧
  (o.decValid = 0 → o.decMode = 0 ∧ o.decData16 = 0 ∧ o.decId8 = 0 ∧ o.rxIsReply = 0) ∧
  (o.rxIsReply = 1 → o.decMode = 0x00 ∧ o.decId8 = 0xFE ∧ o.rxAddr = o.decData16.extractLsb 7 0) ∧
  (o.rxIsReply = 0 → o.rxAddr = 0xFF)

/-- The ops that build a frame of a named kind: GETID, SETID, RUNEN, WRF32, WRU8 (30_encoding.md R36). -/
abbrev Ports.builds (p : Ports) : Prop := p.cmdValid = 1 ∧ 2 ≤ p.cmdOp.toNat ∧ p.cmdOp.toNat ≤ 6

/-- The host keeps device addresses in [0, 127], and so presents no SET_ID from the not-found sentinel
(70_reset_and_hazards.md R67). A premise, never an assumption of the model. -/
abbrev Ports.HostKeepsAddresses (p : Ports) : Prop :=
  (p.builds → p.addrIn.toNat ≤ 127) ∧ (p.builds → p.cmdOp = 3 → p.newAddr.toNat ≤ 127)

/-- The ports the present op does not use carry other values (10_state.md R13): `p` and `r` agree on
`cmd_valid`, `cmd_op` and on the operands that op uses. -/
def Ports.AgreeOnUsed (p r : Ports) : Prop :=
  p.cmdValid = r.cmdValid ∧ p.cmdOp = r.cmdOp ∧
    match p.cmdOp.toNat with
    | 0 => p.modeIn = r.modeIn ∧ p.data16In = r.data16In ∧ p.id8In = r.id8In
    | 1 => p.rxId = r.rxId
    | 2 => p.addrIn = r.addrIn
    | 3 => p.addrIn = r.addrIn ∧ p.newAddr = r.newAddr
    | 4 => p.addrIn = r.addrIn
    | 5 => p.addrIn = r.addrIn ∧ p.indexIn = r.indexIn ∧ p.valF32 = r.valF32
    | 6 => p.addrIn = r.addrIn ∧ p.indexIn = r.indexIn ∧ p.valU8 = r.valU8
    | 7 => p.rxExt = r.rxExt ∧ p.rxLen = r.rxLen ∧ p.rxId = r.rxId
    | _ => True

end Sys2Proof

namespace Sys2Proof.Machine

/-- The output records of the next `n` steps, in order, as far as the machine goes on. -/
def runOuts : Nat → State → List Out
  | 0, _ => []
  | n + 1, s =>
    match step s with
    | .next t => t.out :: runOuts n t
    | .fault _ => []
    | .refused _ => []

/-- The output the present transaction calls for, by the reference function `codec`. -/
def OutFollowsInputs (s : State) : Prop :=
  match s.present with
  | .ports p => s.out = codec p
  | .frame k f => FrameFits k f ∧ s.out = frameRecord k f

/-- A safe step: the machine goes on. -/
def SafeStep (s : State) : Prop := ∃ t, step s = .next t

end Sys2Proof.Machine
end

