-- ==== Sys2Proof/WellFormed.lean ====
section
/-! DEFINITION. Which instructions the encodings admit. Widths are in the types, so that one check is left. -/

namespace Sys2Proof

/-- A reserved op is one of 0x8 to 0xF: bit 3 of `cmd_op` is 1 (30_encoding.md R37, 60_exceptions.md R58).
Every operand value of every other row is legal (60_exceptions.md R57). -/
def Instr.wf : Instr → Bool
  | .rsvd op => decide (8 ≤ op.toNat)
  | .encid _ _ _ => true
  | .decid _ => true
  | .getid _ => true
  | .setid _ _ => true
  | .runen _ => true
  | .wrf32 _ _ _ => true
  | .wru8 _ _ _ => true
  | .classify _ _ _ => true
  | .frameGetIdProbe _ => true
  | .frameSetId _ _ => true
  | .frameRunEnable _ => true
  | .frameWriteOneF32 _ _ _ => true
  | .frameWriteOneU8 _ _ _ => true
  | .frameGetIdReply _ _ => true

/-- `i` is an instruction its encoding admits. -/
abbrev WellFormed (i : Instr) : Prop := i.wf = true

end Sys2Proof
end

