-- ==== Sys2Proof/Certificates/Slice0/Obligations.lean ====
section
/-! DEFINITION. The statements for the provers. `{ s with out := o }` in a conclusion is the frame: the ports and
the queue stay, no other field exists. -/

open Sys2Proof Sys2Proof.Machine

/-! ### Reset, idle, and what a step is -/

/-- O0 field by field, `cmd_valid = 0` gives O0 whatever the other ports hold, and each op leaves O0 in every
field its rule does not name: putting O0's values back in the named fields gives O0 (10_state.md R15). -/
def Obligations.IdleRecordIsWhereEveryOpStarts : Prop :=
  outIdle = ⟨0, 0, 0, 0, ⟨0, 0, 0, 0, 0, 0, 0, 0⟩, 0, 0, 0, 0, 0, 0xFF, 0⟩ ∧
  (∀ (s : State) (p : Ports) (q : List Transaction), s.queue = .ports p :: q → p.cmdValid = 0 →
    step s = .next ⟨.ports p, q, outIdle⟩) ∧
  (∀ (s : State) (i : Instr),
    ((∃ m d b, i = .encid m d b) ∨ (∃ t, i = .getid t) ∨ (∃ c n, i = .setid c n) ∨
      (∃ t, i = .runen t) ∨ (∃ t x f, i = .wrf32 t x f) ∨ (∃ t x v, i = .wru8 t x v)) →
    ∃ t, exec i s = .next t ∧
      { t.out with txValid := 0, txExt := 0, txLen := 0, txId := 0, txData := Payload.zero } = outIdle) ∧
  (∀ (s : State) (id : BitVec 29), ∃ t, exec (.decid id) s = .next t ∧
    { t.out with decValid := 0, decMode := 0, decData16 := 0, decId8 := 0 } = outIdle) ∧
  (∀ (s : State) (e : BitVec 1) (l : BitVec 4) (id : BitVec 29),
    ∃ t, exec (.classify e l id) s = .next t ∧
      { t.out with
        decValid := 0, decMode := 0, decData16 := 0, decId8 := 0, rxIsReply := 0
        rxAddr := 0xFF } = outIdle) ∧
  (∀ (s : State) (op : BitVec 4), ∃ t, exec (.rsvd op) s = .next t ∧
    { t.out with cmdErr := 0 } = outIdle)

/-- After reset `out` is O0 and nothing is presented or queued. That the idle ports stand at 0 and that the
queue is empty are the model's choices (log 1, log 2). -/
def Obligations.ResetLeavesTheIdleRecord : Prop :=
  State.reset.out = outIdle ∧ State.reset.present = Transaction.idle ∧ State.reset.queue = [] ∧
    OutFollowsInputs State.reset ∧ State.reset.out.Legal

/-- A step presents the head of the queue and runs the instruction it decodes to. -/
def Obligations.StepRunsTheDecodedInstruction : Prop :=
  ∀ (s : State) (t : Transaction) (q : List Transaction) (i : Instr), s.queue = t :: q →
    decode t = .ok i → WellFormed i → step s = exec i { s with present := t, queue := q }

/-- With nothing queued the host presents the idle transaction and the codec drives O0 (the model's choice,
log 2; O0 by 10_state.md R15). -/
def Obligations.EmptyQueueStepIsIdle : Prop :=
  ∀ s : State, s.queue = [] → step s = .next ⟨Transaction.idle, [], outIdle⟩

/-- An instruction's whole effect is one output record that no state decides (10_state.md, state of the codec). -/
def Obligations.ExecDrivesARecordNoStateDecides : Prop :=
  ∀ i : Instr, ∃ o : Out, ∀ s : State, exec i s = .next { s with out := o }

/-- Running an instruction again on the state it left changes nothing (20_memory.md, widths and atomicity). -/
def Obligations.ExecIsIdempotent : Prop :=
  ∀ (i : Instr) (s : State), ∃ t, exec i s = .next t ∧ exec i t = .next t

/-! ### The commands -/

/-- ENCID: its encoding, its output on every operand, its corner cases (40_identifier.md R46). -/
def Obligations.EncidBuildsTheMaskedIdentifier : Prop :=
  (∀ p : Ports, p.cmdValid = 1 → p.cmdOp = 0x0 →
    decode (.ports p) = .ok (.encid p.modeIn p.data16In p.id8In)) ∧
  (∀ (m : BitVec 8) (d : BitVec 16) (b : BitVec 8) (s : State),
    exec (.encid m d b) s = .next { s with out := { outIdle with
      txValid := 1, txExt := 1, txLen := 8
      txId := ((m &&& 0x1F).setWidth 29 <<< 24) ||| (d.setWidth 29 <<< 8) ||| b.setWidth 29
      txData := ⟨0, 0, 0, 0, 0, 0, 0, 0⟩ } }) ∧
  (∀ (d : BitVec 16) (b : BitVec 8) (s : State),
    exec (.encid 0x25 d b) s = exec (.encid 0x05 d b) s ∧
      exec (.encid 0xFF d b) s = exec (.encid 0x1F d b) s) ∧
  (∀ (m : BitVec 8) (d : BitVec 16) (b : BitVec 8) (s : State), ∃ t,
    exec (.encid m d b) s = .next t ∧ t.out.txId.extractLsb 28 24 = m.extractLsb 4 0 ∧
      t.out.txId.extractLsb 23 8 = d ∧ t.out.txId.extractLsb 7 0 = b) ∧
  (∀ s : State, (∃ t, exec (.encid 0 0 0) s = .next t ∧ t.out.txId = 0x00000000) ∧
    ∃ t, exec (.encid 0xFF 0xFFFF 0xFF) s = .next t ∧ t.out.txId = 0x1FFFFFFF)

/-- DECID: its encoding, for either value of `rx_ext`, and its output on every identifier, by slices and by
the shifts of the source (40_identifier.md R47). -/
def Obligations.DecidExtractsTheFields : Prop :=
  (∀ p : Ports, p.cmdValid = 1 → p.cmdOp = 0x1 → decode (.ports p) = .ok (.decid p.rxId)) ∧
  (∀ (id : BitVec 29) (s : State),
    exec (.decid id) s = .next { s with out := { outIdle with
      decValid := 1, decMode := id.extractLsb 28 24, decData16 := id.extractLsb 23 8
      decId8 := id.extractLsb 7 0 } }) ∧
  (∀ id : BitVec 29, id.extractLsb 28 24 = ((id >>> 24) &&& 0x1F).setWidth 5 ∧
    id.extractLsb 23 8 = ((id >>> 8) &&& 0xFFFF).setWidth 16 ∧
    id.extractLsb 7 0 = (id &&& 0xFF).setWidth 8)

/-- The round trip both ways; the second way is the spec's own derivation (40_identifier.md, round-trip law). -/
def Obligations.IdentifierRoundTrip : Prop :=
  (∀ (m : BitVec 8) (d : BitVec 16) (b : BitVec 8) (s : State), m.toNat ≤ 31 →
    ∃ t u, exec (.encid m d b) s = .next t ∧ exec (.decid t.out.txId) t = .next u ∧
      u.out.decMode.toNat = m.toNat ∧ u.out.decData16 = d ∧ u.out.decId8 = b) ∧
  (∀ (id : BitVec 29) (s : State),
    ∃ t u, exec (.decid id) s = .next t ∧
      exec (.encid (t.out.decMode.setWidth 8) t.out.decData16 t.out.decId8) t = .next u ∧
      u.out.txId = id)

/-- The masking law, and what a round trip returns for a mode above 31; the general case is the spec's own
derivation (40_identifier.md, masking law). -/
def Obligations.EncidMasksTheMode : Prop :=
  (∀ (m : BitVec 8) (d : BitVec 16) (b : BitVec 8) (s : State),
    exec (.encid m d b) s = exec (.encid (m &&& 0x1F) d b) s) ∧
  (∀ (m : BitVec 8) (d : BitVec 16) (b : BitVec 8) (s : State), 32 ≤ m.toNat →
    ∃ t u, exec (.encid m d b) s = .next t ∧ exec (.decid t.out.txId) t = .next u ∧
      u.out.decMode.setWidth 8 = m &&& 0x1F ∧ u.out.decMode.setWidth 8 ≠ m)

/-- ENCID of a probe's fields builds GETID's frame, the spec's own derivation (40_identifier.md, ENCID's corner
cases). -/
def Obligations.EncidOfProbeFieldsIsGetid : Prop :=
  ∀ (a : BitVec 8) (s : State), exec (.encid 0x00 0xFD00 a) s = exec (.getid a) s

/-- GETID: its encoding, its output for every target, and that a probe to 0xFE would be classified as a reply
announcing 0x00 (41_frame_build.md R50). -/
def Obligations.GetidBuildsTheProbe : Prop :=
  (∀ p : Ports, p.cmdValid = 1 → p.cmdOp = 0x2 → decode (.ports p) = .ok (.getid p.addrIn)) ∧
  (∀ (a : BitVec 8) (s : State),
    exec (.getid a) s = .next { s with out := { outIdle with
      txValid := 1, txExt := 1, txLen := 8, txId := 0x00FD0000 ||| a.setWidth 29
      txData := ⟨0, 0, 0, 0, 0, 0, 0, 0⟩ } }) ∧
  (∀ s : State, ∃ t u, exec (.getid 0xFE) s = .next t ∧ t.out.txId = 0x00FD00FE ∧
    exec (.classify t.out.txExt t.out.txLen t.out.txId) t = .next u ∧
    u.out.rxIsReply = 1 ∧ u.out.rxAddr = 0x00) ∧
  (∀ s : State, ∃ t, exec (.getid 0xFF) s = .next t ∧ t.out.txId = 0x00FD00FF)

/-- SETID: its encoding and its output for every current and new address (41_frame_build.md R51). -/
def Obligations.SetidBuildsTheReassignment : Prop :=
  (∀ p : Ports, p.cmdValid = 1 → p.cmdOp = 0x3 →
    decode (.ports p) = .ok (.setid p.addrIn p.newAddr)) ∧
  (∀ (c n : BitVec 8) (s : State),
    exec (.setid c n) s = .next { s with out := { outIdle with
      txValid := 1, txExt := 1, txLen := 8
      txId := 0x0700FD00 ||| (n.setWidth 29 <<< 16) ||| c.setWidth 29
      txData := ⟨0, 0, 0, 0, 0, 0, 0, 0⟩ } }) ∧
  (∀ (c n : BitVec 8) (s : State), ∃ t, exec (.setid c n) s = .next t ∧
    t.out.txId.extractLsb 28 24 = 0x07#5 ∧ t.out.txId.extractLsb 23 16 = n ∧
    t.out.txId.extractLsb 15 8 = 0xFD#8 ∧ t.out.txId.extractLsb 7 0 = c)

/-- RUNEN: its encoding and its output for every target (41_frame_build.md R52). -/
def Obligations.RunenBuildsTheEnable : Prop :=
  (∀ p : Ports, p.cmdValid = 1 → p.cmdOp = 0x4 → decode (.ports p) = .ok (.runen p.addrIn)) ∧
  (∀ (a : BitVec 8) (s : State),
    exec (.runen a) s = .next { s with out := { outIdle with
      txValid := 1, txExt := 1, txLen := 8, txId := 0x03FD0000 ||| a.setWidth 29
      txData := ⟨0, 0, 0, 0, 0, 0, 0, 0⟩ } })

/-- WRF32: its encoding and its output for every target, index and pattern (41_frame_build.md, WRF32), and that
bytes 4 to 7 read back little-endian give the pattern, whatever it is: this last clause, for every
pattern, is the spec's own derivation (41_frame_build.md, WRF32's corner cases; 20_memory.md, byte order). -/
def Obligations.Wrf32BuildsTheFloatWrite : Prop :=
  (∀ p : Ports, p.cmdValid = 1 → p.cmdOp = 0x5 →
    decode (.ports p) = .ok (.wrf32 p.addrIn p.indexIn p.valF32)) ∧
  (∀ (a : BitVec 8) (x : BitVec 16) (f : BitVec 32) (s : State),
    exec (.wrf32 a x f) s = .next { s with out := { outIdle with
      txValid := 1, txExt := 1, txLen := 8, txId := 0x12FD0000 ||| a.setWidth 29
      txData := ⟨x.extractLsb 7 0, x.extractLsb 15 8, 0, 0, f.extractLsb 7 0, f.extractLsb 15 8,
        f.extractLsb 23 16, f.extractLsb 31 24⟩ } }) ∧
  (∀ (a : BitVec 8) (x : BitVec 16) (f : BitVec 32) (s : State), ∃ t,
    exec (.wrf32 a x f) s = .next t ∧
      t.out.txData.b7 ++ t.out.txData.b6 ++ t.out.txData.b5 ++ t.out.txData.b4 = f)

/-- WRU8: its encoding, its output for every target, index and value, and the identifier of WRF32 for the same
target (41_frame_build.md R54). -/
def Obligations.Wru8BuildsTheByteWrite : Prop :=
  (∀ p : Ports, p.cmdValid = 1 → p.cmdOp = 0x6 →
    decode (.ports p) = .ok (.wru8 p.addrIn p.indexIn p.valU8)) ∧
  (∀ (a : BitVec 8) (x : BitVec 16) (v : BitVec 8) (s : State),
    exec (.wru8 a x v) s = .next { s with out := { outIdle with
      txValid := 1, txExt := 1, txLen := 8, txId := 0x12FD0000 ||| a.setWidth 29
      txData := ⟨x.extractLsb 7 0, x.extractLsb 15 8, 0, 0, v, 0, 0, 0⟩ } }) ∧
  (∀ (a : BitVec 8) (x y : BitVec 16) (v : BitVec 8) (f : BitVec 32) (s : State), ∃ t u,
    exec (.wru8 a x v) s = .next t ∧ exec (.wrf32 a y f) s = .next u ∧ t.out.txId = u.out.txId)

/-- A byte write and a float write drive the same record exactly when target, index and zero-extended value
agree: nothing in a frame tells the two kinds apart (30_encoding.md, the payload; 41_frame_build.md, the
spec's own derivation). -/
def Obligations.ByteWriteIsAFloatWriteOnlyOfItsZeroExtension : Prop :=
  ∀ (a c : BitVec 8) (x y : BitVec 16) (v : BitVec 8) (f : BitVec 32) (s : State),
    exec (.wru8 a x v) s = exec (.wrf32 c y f) s ↔ a = c ∧ x = y ∧ f = v.setWidth 32

/-- The payload layout of both WRITE_ONE kinds, byte by byte (20_memory.md R25, R26, R27). -/
def Obligations.WriteOnePayloadIsLittleEndian : Prop :=
  (∀ (a : BitVec 8) (x : BitVec 16) (f : BitVec 32) (s : State), ∃ t,
    exec (.wrf32 a x f) s = .next t ∧
      t.out.txData.byte 0 = x.extractLsb 7 0 ∧ t.out.txData.byte 1 = x.extractLsb 15 8 ∧
      t.out.txData.byte 2 = 0 ∧ t.out.txData.byte 3 = 0 ∧
      (∀ k : Fin 4, t.out.txData.byte ⟨4 + k.val, by omega⟩ = f.extractLsb' (8 * k.val) 8) ∧
      (t.out.txData.byte 7).msb = f.msb) ∧
  (∀ (a : BitVec 8) (x : BitVec 16) (v : BitVec 8) (s : State), ∃ t,
    exec (.wru8 a x v) s = .next t ∧
      t.out.txData.byte 0 = x.extractLsb 7 0 ∧ t.out.txData.byte 1 = x.extractLsb 15 8 ∧
      t.out.txData.byte 2 = 0 ∧ t.out.txData.byte 3 = 0 ∧ t.out.txData.byte 4 = v ∧
      t.out.txData.byte 5 = 0 ∧ t.out.txData.byte 6 = 0 ∧ t.out.txData.byte 7 = 0)

/-- CLASSIFY: its encoding and its output on every extended flag, length and identifier; the payload ports are
no operand (42_rx_classify.md R55). -/
def Obligations.ClassifyQualifiesByTheFourConditions : Prop :=
  (∀ p : Ports, p.cmdValid = 1 → p.cmdOp = 0x7 →
    decode (.ports p) = .ok (.classify p.rxExt p.rxLen p.rxId)) ∧
  (∀ (e : BitVec 1) (l : BitVec 4) (id : BitVec 29) (s : State),
    exec (.classify e l id) s = .next { s with out := { outIdle with
      decValid := 1, decMode := id.extractLsb 28 24, decData16 := id.extractLsb 23 8
      decId8 := id.extractLsb 7 0
      rxIsReply :=
        if e = 1 ∧ l = 8 ∧ id.extractLsb 28 24 = 0x00#5 ∧ id.extractLsb 7 0 = 0xFE#8 then 1 else 0
      rxAddr :=
        if e = 1 ∧ l = 8 ∧ id.extractLsb 28 24 = 0x00#5 ∧ id.extractLsb 7 0 = 0xFE#8 then
          id.extractLsb 15 8
        else 0xFF } })

/-- What CLASSIFY does not check, the spec's own derivation: every reply identifier announces its bits 15..8,
whatever bits 23..16 and the announced value are; other lengths and standard frames never qualify; the
payload ports change no output (42_rx_classify.md, what CLASSIFY does not check). -/
def Obligations.ClassifyChecksNothingElse : Prop :=
  (∀ (x a : BitVec 8) (s : State), ∃ t,
    exec (.classify 1 8 (0x00#5 ++ x ++ a ++ 0xFE#8)) s = .next t ∧ t.out.rxIsReply = 1 ∧
      t.out.rxAddr = a) ∧
  (∀ (e : BitVec 1) (l : BitVec 4) (id : BitVec 29) (s : State), l ≠ 8 →
    ∃ t, exec (.classify e l id) s = .next t ∧ t.out.rxIsReply = 0 ∧ t.out.rxAddr = 0xFF) ∧
  (∀ (l : BitVec 4) (id : BitVec 29) (s : State),
    ∃ t, exec (.classify 0 l id) s = .next t ∧ t.out.rxIsReply = 0 ∧ t.out.rxAddr = 0xFF) ∧
  (∀ (p : Ports) (d : Payload) (q : List Transaction) (s : State), s.queue = .ports p :: q →
    ∃ t u, step s = .next t ∧ step { s with queue := .ports { p with rxData := d } :: q } = .next u ∧
      t.out = u.out)

/-- CLASSIFY writes the decoded fields as DECID writes them (40_identifier.md, 42_rx_classify.md;
92_eei_decisions.md D23). -/
def Obligations.ClassifyDecodesAsDecidDoes : Prop :=
  ∀ (e : BitVec 1) (l : BitVec 4) (id : BitVec 29) (s : State), ∃ t u,
    exec (.classify e l id) s = .next t ∧ exec (.decid id) s = .next u ∧
      { t.out with rxIsReply := 0, rxAddr := 0xFF } = u.out

/-- Reserved ops: their encoding, their output, and that no defined op and no idle transaction raises
`cmd_err`, whatever the command before left (60_exceptions.md R58). -/
def Obligations.ReservedOpRaisesCmdErrAlone : Prop :=
  (∀ p : Ports, p.cmdValid = 1 → 8 ≤ p.cmdOp.toNat → decode (.ports p) = .ok (.rsvd p.cmdOp)) ∧
  (∀ (op : BitVec 4) (s : State),
    exec (.rsvd op) s = .next { s with out :=
      ⟨0, 0, 0, 0, ⟨0, 0, 0, 0, 0, 0, 0, 0⟩, 0, 0, 0, 0, 0, 0xFF, 1⟩ }) ∧
  (∀ (s : State) (p : Ports) (q : List Transaction), s.queue = .ports p :: q →
    (p.cmdValid = 0 ∨ p.cmdOp.toNat < 8) → ∃ t, step s = .next t ∧ t.out.cmdErr = 0)

/-- The codec raises nothing: every value the ports can carry gives a next state, and there is no fault to
raise (60_exceptions.md R57). -/
def Obligations.NoPortValueStopsTheCodec : Prop :=
  (∀ (s : State) (p : Ports) (q : List Transaction), s.queue = .ports p :: q →
    ∃ t, step s = .next t ∧ (t.out.cmdErr = 1 ↔ p.cmdValid = 1 ∧ 8 ≤ p.cmdOp.toNat)) ∧
  (Fault → False)

/-! ### Rules of the whole codec -/

/-- Every frame a command builds is extended with 8 payload bytes, and ENCID and each builder build one
(30_encoding.md R39). -/
def Obligations.EveryBuiltFrameIsExtendedOfLengthEight : Prop :=
  ∀ (s : State) (p : Ports) (q : List Transaction), s.queue = .ports p :: q →
    ∃ t, step s = .next t ∧ (t.out.txValid = 1 → t.out.txExt = 1 ∧ t.out.txLen = 8) ∧
      (p.builds ∨ (p.cmdValid = 1 ∧ p.cmdOp = 0) → t.out.txValid = 1)

/-- Modes without a named kind pass through ENCID and DECID, never make a reply, and no builder produces them
(30_encoding.md R44). -/
def Obligations.UnnamedModesPassThrough : Prop :=
  (∀ (m : BitVec 8) (d : BitVec 16) (b : BitVec 8) (s : State), ∃ t,
    exec (.encid m d b) s = .next t ∧ t.out.txId.extractLsb 28 24 = m.extractLsb 4 0) ∧
  (∀ (id : BitVec 29) (s : State), ∃ t,
    exec (.decid id) s = .next t ∧ t.out.decMode = id.extractLsb 28 24) ∧
  (∀ (e : BitVec 1) (l : BitVec 4) (id : BitVec 29) (s : State),
    id.extractLsb 28 24 ∉ [0x00#5, 0x03#5, 0x07#5, 0x12#5] →
    ∃ t, exec (.classify e l id) s = .next t ∧ t.out.rxIsReply = 0) ∧
  (∀ (s : State) (p : Ports) (q : List Transaction), s.queue = .ports p :: q → p.builds →
    ∃ t, step s = .next t ∧ t.out.txId.extractLsb 28 24 ∈ [0x00#5, 0x03#5, 0x07#5, 0x12#5])

/-- The identifier patterns: each builder's identifiers are exactly those its row's match and mask admit, and a
reply is exactly an extended frame of length 8 the reply row admits (30_encoding.md, frame-kind patterns,
the spec's own derivation). -/
def Obligations.BuildersProduceExactlyTheirPatterns : Prop :=
  (∀ (id : BitVec 29) (s : State), id &&& 0x1FFFFF00 = 0x00FD0000 ↔
    ∃ a t, exec (.getid a) s = .next t ∧ t.out.txId = id) ∧
  (∀ (id : BitVec 29) (s : State), id &&& 0x1F00FF00 = 0x0700FD00 ↔
    ∃ c n t, exec (.setid c n) s = .next t ∧ t.out.txId = id) ∧
  (∀ (id : BitVec 29) (s : State), id &&& 0x1FFFFF00 = 0x03FD0000 ↔
    ∃ a t, exec (.runen a) s = .next t ∧ t.out.txId = id) ∧
  (∀ (id : BitVec 29) (x : BitVec 16) (f : BitVec 32) (s : State),
    id &&& 0x1FFFFF00 = 0x12FD0000 ↔
      ∃ a t, exec (.wrf32 a x f) s = .next t ∧ t.out.txId = id) ∧
  (∀ (id : BitVec 29) (x : BitVec 16) (v : BitVec 8) (s : State),
    id &&& 0x1FFFFF00 = 0x12FD0000 ↔
      ∃ a t, exec (.wru8 a x v) s = .next t ∧ t.out.txId = id) ∧
  (∀ (e : BitVec 1) (l : BitVec 4) (id : BitVec 29) (s : State),
    (e = 1 ∧ l = 8 ∧ id &&& 0x1F0000FF = 0x000000FE) ↔
      ∃ t, exec (.classify e l id) s = .next t ∧ t.out.rxIsReply = 1)

/-- Two different rows admit one identifier only as WRITE_ONE float and byte, or as probe and reply at
0x00FD00FE (30_encoding.md, frame-kind patterns and payload). -/
def Obligations.RowsOverlapOnlyWhereTheSpecSays : Prop :=
  ∀ (k j : FrameKind) (id : BitVec 29), k ≠ j →
    ((k.admits id = true ∧ j.admits id = true) ↔
      ((k = .writeOneF32 ∧ j = .writeOneU8 ∨ k = .writeOneU8 ∧ j = .writeOneF32) ∧
          id.extractLsb 28 8 = 0x12FD00#21) ∨
        ((k = .getIdProbe ∧ j = .getIdReply ∨ k = .getIdReply ∧ j = .getIdProbe) ∧
          id = 0x00FD00FE))

/-- Ports the present op does not use change neither the instruction nor the output (10_state.md, input ports). -/
def Obligations.UnusedPortsAreIgnored : Prop :=
  ∀ p r : Ports, p.AgreeOnUsed r → decode (.ports p) = decode (.ports r) ∧
    ∀ (s : State) (q : List Transaction), ∃ t u,
      step { s with queue := .ports p :: q } = .next t ∧
        step { s with queue := .ports r :: q } = .next u ∧ t.out = u.out

/-- A host sends a frame for a port transaction exactly when its op is ENCID or a builder; DECID, CLASSIFY,
reserved ops and idle send none (70_reset_and_hazards.md, host obligations; 92_eei_decisions.md D26). -/
def Obligations.FramesAreSentForBuildersAlone : Prop :=
  ∀ (s : State) (p : Ports) (q : List Transaction), s.queue = .ports p :: q →
    ∃ t, step s = .next t ∧
      (t.out.sent.isSome = true ↔ p.cmdValid = 1 ∧ (p.cmdOp = 0 ∨ p.builds))

/-- A host that keeps addresses in [0, 127] sends, through the five builders, no frame that would be taken for a
reply when it comes back inbound, and addresses no device above 127 (70_reset_and_hazards.md, host
obligations; 42_rx_classify.md). -/
def Obligations.KeptAddressesNeverLookLikeReplies : Prop :=
  ∀ (s : State) (p : Ports) (q : List Transaction), s.queue = .ports p :: q → p.builds →
    p.HostKeepsAddresses → ∃ t f u, step s = .next t ∧ t.out.sent = some f ∧
      (f.id.extractLsb 7 0).toNat ≤ 127 ∧ exec (.classify f.ext f.len f.id) t = .next u ∧
      u.out.discovered = none

/-- From `T_PD` after its inputs are stable a host reads the record of the command it presented, whatever
`T_PD` is (70_reset_and_hazards.md, timing; `T_PD` is a free value, log 7). -/
def Obligations.SettledReadIsTheCommandsRecord : Prop :=
  ∀ (s : State) (p : Ports) (q : List Transaction), s.queue = .ports p :: q →
    ∃ t, step s = .next t ∧
      ∀ elapsed reading : Nat, Config.tPd ≤ elapsed → t.readOut elapsed reading = codec p

/-! ### The codec as a function, and runs -/

/-- On a port transaction one step is `Codec` of the ports, the function written a second time straight from
the rules (10_state.md R16). -/
def Obligations.PortStepIsCodecOfThePorts : Prop :=
  ∀ (s : State) (p : Ports) (q : List Transaction), s.queue = .ports p :: q →
    step s = .next ⟨.ports p, q, codec p⟩

/-- A run over a sequence of commands is the list of `Codec` applied to each, from any state (10_state.md R16). -/
def Obligations.RunIsTheListOfCodecOfEachCommand : Prop :=
  ∀ (ps : List Ports) (s : State), s.queue = ps.map .ports → runOuts ps.length s = ps.map codec

/-- What stood on the ports and on `out` before changes no later output (10_state.md, 70_reset_and_hazards.md:
no hazards). That the steps after the queue has run out are idle transactions is the model's choice
(log 2), and so are the frame transactions a queue may hold, their records and their refusals (log 3,
log 5). -/
def Obligations.OutputsForgetTheHistory : Prop :=
  ∀ (n : Nat) (s u : State), s.queue = u.queue → runOuts n s = runOuts n u

/-- The order of the commands changes the order of the outputs and nothing else (20_memory.md, ordering between
commands). -/
def Obligations.ReorderingCommandsOnlyReordersOutputs : Prop :=
  ∀ (ps rs : List Ports) (s u : State), s.queue = ps.map .ports → u.queue = rs.map .ports →
    ps.Perm rs → (runOuts ps.length s).Perm (runOuts rs.length u)

/-- Every step leaves `out` equal to what the present transaction calls for, by the reference function
(10_state.md, state of the codec; for written-out frames the model's choice, log 3). -/
def Obligations.StepKeepsOutFollowingInputs : Prop :=
  ∀ s t : State, OutFollowsInputs s → step s = .next t → OutFollowsInputs t

/-- Every step leaves a legal record: unused fields at O0, at most one of frame, fields and error, a reply only
where the decoded fields make one. -/
def Obligations.StepKeepsOutLegal : Prop :=
  ∀ s t : State, s.out.Legal → step s = .next t → t.out.Legal

/-! ### Frame kinds (log 3: that a frame kind means its own output record is the model's choice) -/

/-- Each outbound frame kind puts its frame on `tx_*`: identifier by its fields, payload by its layout
(the model's choice of a meaning for these rows, log 3; fields by 30_encoding.md). -/
def Obligations.OutboundFrameKindsStandOnTx : Prop :=
  (∀ (a : BitVec 8) (s : State), exec (.frameGetIdProbe a) s = .next { s with out :=
    { outIdle with txValid := 1, txExt := 1, txLen := 8, txId := 0x00FD00#21 ++ a
                   txData := ⟨0, 0, 0, 0, 0, 0, 0, 0⟩ } }) ∧
  (∀ (n c : BitVec 8) (s : State), exec (.frameSetId n c) s = .next { s with out :=
    { outIdle with txValid := 1, txExt := 1, txLen := 8, txId := 0x07#5 ++ n ++ 0xFD#8 ++ c
                   txData := ⟨0, 0, 0, 0, 0, 0, 0, 0⟩ } }) ∧
  (∀ (a : BitVec 8) (s : State), exec (.frameRunEnable a) s = .next { s with out :=
    { outIdle with txValid := 1, txExt := 1, txLen := 8, txId := 0x03FD00#21 ++ a
                   txData := ⟨0, 0, 0, 0, 0, 0, 0, 0⟩ } }) ∧
  (∀ (a : BitVec 8) (x : BitVec 16) (f : BitVec 32) (s : State),
    exec (.frameWriteOneF32 a x f) s = .next { s with out :=
      { outIdle with txValid := 1, txExt := 1, txLen := 8, txId := 0x12FD00#21 ++ a
                     txData := ⟨x.extractLsb 7 0, x.extractLsb 15 8, 0, 0, f.extractLsb 7 0,
                       f.extractLsb 15 8, f.extractLsb 23 16, f.extractLsb 31 24⟩ } }) ∧
  (∀ (a : BitVec 8) (x : BitVec 16) (v : BitVec 8) (s : State),
    exec (.frameWriteOneU8 a x v) s = .next { s with out :=
      { outIdle with txValid := 1, txExt := 1, txLen := 8, txId := 0x12FD00#21 ++ a
                     txData := ⟨x.extractLsb 7 0, x.extractLsb 15 8, 0, 0, v, 0, 0, 0⟩ } })

/-- The reply frame kind is classified as a reply announcing `a`, whatever `x` is (the model's choice of a
meaning for this row, log 3; fields by 42_rx_classify.md). -/
def Obligations.ReplyFrameKindIsClassified : Prop :=
  ∀ (x a : BitVec 8) (s : State), exec (.frameGetIdReply x a) s = .next { s with out :=
    { outIdle with
      decValid := 1, decMode := 0x00, decData16 := x ++ a, decId8 := 0xFE, rxIsReply := 1
      rxAddr := a } }

/-- Each frame kind and the command that builds or classifies it drive the same record (log 3). -/
def Obligations.FrameKindsAgreeWithTheirCommands : Prop :=
  ∀ s : State,
    (∀ a, exec (.frameGetIdProbe a) s = exec (.getid a) s) ∧
    (∀ n c, exec (.frameSetId n c) s = exec (.setid c n) s) ∧
    (∀ a, exec (.frameRunEnable a) s = exec (.runen a) s) ∧
    (∀ a x f, exec (.frameWriteOneF32 a x f) s = exec (.wrf32 a x f) s) ∧
    (∀ a x v, exec (.frameWriteOneU8 a x v) s = exec (.wru8 a x v) s) ∧
    (∀ x a, exec (.frameGetIdReply x a) s =
      exec (.classify 1 8 (0x00#5 ++ x ++ a ++ 0xFE#8)) s)

/-- A written-out frame that fits its row drives the record of that frame, one that does not is refused by name
(the model's choice: the frame form, log 3, that it names its row, log 4, the refusal, log 5). -/
def Obligations.FrameStepIsTheFramesRecord : Prop :=
  ∀ (s : State) (k : FrameKind) (f : Frame) (q : List Transaction), s.queue = .frame k f :: q →
    (FrameFits k f → step s = .next ⟨.frame k f, q, frameRecord k f⟩) ∧
      (¬FrameFits k f → ∃ why, step s = .refused (.frameRejected why))

/-! ### Encoding -/

/-- Words written out from the spec's op map and identifier patterns decode to the instructions they stand for. The
op values and the patterns are the spec's (30_encoding.md). That a `cmd_op` word standing alone carries
every operand port at 0 (log 6), and that a word of more than 8 bits is an identifier read as the first row
it fits (log 4), with a frame row as an instruction (log 3), are the model's choices. -/
def Obligations.WrittenOutWordsDecode : Prop :=
  decodeTableWord 8 0x0 = some (.encid 0 0 0) ∧ decodeTableWord 8 0x3 = some (.setid 0 0) ∧
  decodeTableWord 8 0x7 = some (.classify 0 0 0) ∧ decodeTableWord 8 0xF = some (.rsvd 0xF) ∧
  decodeTableWord 32 0x0705FD12 = some (.frameSetId 0x05 0x12) ∧
  decodeTableWord 32 0x03FD0012 = some (.frameRunEnable 0x12) ∧
  decodeTableWord 32 0x000022FE = some (.frameGetIdReply 0x00 0x22)

/-- Decode and encode agree on every well-formed instruction of all fifteen rows, at every operand. For the nine
commands this is about port values (30_encoding.md). For the six frame rows it rests on the model's choice
that a written-out frame is a transaction (log 3) and names its row (log 4): the identifier alone does not
tell FRAME_WRITE_ONE_U8 from FRAME_WRITE_ONE_F32 (30_encoding.md, the payload). -/
def Obligations.DecodeOfEncodeIsTheInstruction : Prop :=
  ∀ i : Instr, WellFormed i → decode (encode i) = .ok i

/-- What decodes is well formed; an outbound frame is exactly its instruction's encoding, no bit free; an inbound
reply is its instruction's encoding but for its payload, which no rule examines and the encoder writes as
zeros; port values differ from the encoding of their instruction only on ports the op does not use. The
frame clauses are about frame transactions that name their row, the model's choice (log 3, log 4). -/
def Obligations.EncodeOfDecodeIsTheTransaction : Prop :=
  (∀ (t : Transaction) (i : Instr), decode t = .ok i → WellFormed i) ∧
  (∀ (k : FrameKind) (f : Frame) (i : Instr), decode (.frame k f) = .ok i → k ≠ .getIdReply →
    encode i = .frame k f) ∧
  (∀ (f : Frame) (i : Instr), decode (.frame .getIdReply f) = .ok i →
    encode i = .frame .getIdReply { f with data := Payload.zero }) ∧
  (∀ (p : Ports) (i : Instr), decode (.ports p) = .ok i →
    ∃ r, encode i = .ports r ∧ p.AgreeOnUsed r)

/-- A line whose numbers fit their ports assembles to the transaction of its instruction with those numbers; the
lines and their operands are the spec's (30_encoding.md, assembler syntax). That an assembled line drives 0
on the ports its op does not use (log 10), and that `IDLE` has every port at 0 (log 1), are the model's
choices. -/
def Obligations.LinesAssembleToTheirInstructions : Prop :=
  (∀ (m : BitVec 8) (d : BitVec 16) (b : BitVec 8),
    (AsmLine.encid m.toNat d.toNat b.toNat).assemble = some (encode (.encid m d b))) ∧
  (∀ id : BitVec 29, (AsmLine.decid id.toNat).assemble = some (encode (.decid id))) ∧
  (∀ a : BitVec 8, (AsmLine.getid a.toNat).assemble = some (encode (.getid a))) ∧
  (∀ c n : BitVec 8, (AsmLine.setid c.toNat n.toNat).assemble = some (encode (.setid c n))) ∧
  (∀ a : BitVec 8, (AsmLine.runen a.toNat).assemble = some (encode (.runen a))) ∧
  (∀ (a : BitVec 8) (x : BitVec 16) (f : BitVec 32),
    (AsmLine.wrf32 a.toNat x.toNat f.toNat).assemble = some (encode (.wrf32 a x f))) ∧
  (∀ (a : BitVec 8) (x : BitVec 16) (v : BitVec 8),
    (AsmLine.wru8 a.toNat x.toNat v.toNat).assemble = some (encode (.wru8 a x v))) ∧
  (∀ (e : BitVec 1) (n : BitVec 4) (id : BitVec 29),
    (AsmLine.classify e.toNat n.toNat id.toNat).assemble = some (encode (.classify e n id))) ∧
  (∀ op : BitVec 4, 8 ≤ op.toNat → (AsmLine.rsvd op.toNat).assemble = some (encode (.rsvd op))) ∧
  AsmLine.idle.assemble = some Transaction.idle ∧ decode Transaction.idle = .error .idle

/-- A line is assembled exactly when each number fits its port: a wider value cannot be presented
(10_state.md, input ports). That an `RSVD` line is assembled for the ops 8 to 15 only is the model's
choice (log 10). -/
def Obligations.WiderNumbersCannotBePresented : Prop :=
  (∀ m d b, (AsmLine.encid m d b).assemble.isSome = true ↔ m < 2 ^ 8 ∧ d < 2 ^ 16 ∧ b < 2 ^ 8) ∧
  (∀ id, (AsmLine.decid id).assemble.isSome = true ↔ id < 2 ^ 29) ∧
  (∀ a, (AsmLine.getid a).assemble.isSome = true ↔ a < 2 ^ 8) ∧
  (∀ c n, (AsmLine.setid c n).assemble.isSome = true ↔ c < 2 ^ 8 ∧ n < 2 ^ 8) ∧
  (∀ a, (AsmLine.runen a).assemble.isSome = true ↔ a < 2 ^ 8) ∧
  (∀ a x f, (AsmLine.wrf32 a x f).assemble.isSome = true ↔ a < 2 ^ 8 ∧ x < 2 ^ 16 ∧ f < 2 ^ 32) ∧
  (∀ a x v, (AsmLine.wru8 a x v).assemble.isSome = true ↔ a < 2 ^ 8 ∧ x < 2 ^ 16 ∧ v < 2 ^ 8) ∧
  (∀ e n id, (AsmLine.classify e n id).assemble.isSome = true ↔ e < 2 ∧ n < 2 ^ 4 ∧ id < 2 ^ 29) ∧
  (∀ op, (AsmLine.rsvd op).assemble.isSome = true ↔ 8 ≤ op ∧ op < 2 ^ 4)
end

