-- ==== Sys2Proof/Laws/State.lean ====
section
/-! SUPPORT. One lemma per field per update of the state and of the output records, so that no later proof
unfolds a record update. -/

namespace Sys2Proof.Machine

@[simp] theorem drive_present (s : State) (o : Out) : (s.drive o).present = s.present := rfl
@[simp] theorem drive_queue (s : State) (o : Out) : (s.drive o).queue = s.queue := rfl
@[simp] theorem drive_out (s : State) (o : Out) : (s.drive o).out = o := rfl
@[simp] theorem drive_drive (s : State) (o r : Out) : (s.drive o).drive r = s.drive r := rfl

@[simp] theorem presentNext_out (s : State) : s.presentNext.out = s.out := by
  unfold State.presentNext; split <;> rfl

theorem presentNext_nil {s : State} (h : s.queue = []) :
    s.presentNext = { s with present := Transaction.idle } := by
  simp [State.presentNext, h]

theorem presentNext_cons {s : State} {t : Transaction} {q : List Transaction} (h : s.queue = t :: q) :
    s.presentNext = { s with present := t, queue := q } := by
  simp [State.presentNext, h]

@[simp] theorem withFetchWord_present (s : State) (n w : Nat) :
    (s.withFetchWord n w).present = s.present := rfl
@[simp] theorem withFetchWord_out (s : State) (n w : Nat) : (s.withFetchWord n w).out = s.out := rfl
@[simp] theorem withFetchWord_queue (s : State) (n w : Nat) :
    (s.withFetchWord n w).queue = tableTransaction n w :: s.queue := rfl

@[simp] theorem reset_present : State.reset.present = Transaction.idle := rfl
@[simp] theorem reset_queue : State.reset.queue = [] := rfl
@[simp] theorem reset_out : State.reset.out = outIdle := rfl

@[simp] theorem sendOut_txValid (f : Frame) : (sendOut f).txValid = 1 := rfl
@[simp] theorem sendOut_txExt (f : Frame) : (sendOut f).txExt = f.ext := rfl
@[simp] theorem sendOut_txLen (f : Frame) : (sendOut f).txLen = f.len := rfl
@[simp] theorem sendOut_txId (f : Frame) : (sendOut f).txId = f.id := rfl
@[simp] theorem sendOut_txData (f : Frame) : (sendOut f).txData = f.data := rfl
@[simp] theorem sendOut_decValid (f : Frame) : (sendOut f).decValid = 0 := rfl
@[simp] theorem sendOut_rxIsReply (f : Frame) : (sendOut f).rxIsReply = 0 := rfl
@[simp] theorem sendOut_rxAddr (f : Frame) : (sendOut f).rxAddr = Config.noneFound := rfl
@[simp] theorem sendOut_cmdErr (f : Frame) : (sendOut f).cmdErr = 0 := rfl

@[simp] theorem decodedOut_txValid (id : BitVec 29) : (decodedOut id).txValid = 0 := rfl
@[simp] theorem decodedOut_decValid (id : BitVec 29) : (decodedOut id).decValid = 1 := rfl
@[simp] theorem decodedOut_decMode (id : BitVec 29) : (decodedOut id).decMode = idMode id := rfl
@[simp] theorem decodedOut_decData16 (id : BitVec 29) : (decodedOut id).decData16 = idData16 id := rfl
@[simp] theorem decodedOut_decId8 (id : BitVec 29) : (decodedOut id).decId8 = idId8 id := rfl
@[simp] theorem decodedOut_rxIsReply (id : BitVec 29) : (decodedOut id).rxIsReply = 0 := rfl
@[simp] theorem decodedOut_rxAddr (id : BitVec 29) : (decodedOut id).rxAddr = Config.noneFound := rfl
@[simp] theorem decodedOut_cmdErr (id : BitVec 29) : (decodedOut id).cmdErr = 0 := rfl

@[simp] theorem errorOut_txValid : errorOut.txValid = 0 := rfl
@[simp] theorem errorOut_decValid : errorOut.decValid = 0 := rfl
@[simp] theorem errorOut_rxIsReply : errorOut.rxIsReply = 0 := rfl
@[simp] theorem errorOut_rxAddr : errorOut.rxAddr = Config.noneFound := rfl
@[simp] theorem errorOut_cmdErr : errorOut.cmdErr = 1 := rfl

end Sys2Proof.Machine
end

