-- ==== Sys2Proof/Laws/Ops.lean ====
section
/-! SUPPORT. One lemma per shared operation saying once what it can do: identifier packing and unpacking as
concatenation and slices, classification, decoding, presenting, a step. -/

namespace Sys2Proof.Machine

/-! ### Identifiers -/

theorem maskMode_eq (m : BitVec 8) : maskMode m = m.extractLsb' 0 5 := by
  unfold maskMode; ext i hi; simp; decide +revert

/-- A packed identifier is the concatenation of its fields (30_encoding.md R38). -/
theorem packId_eq_append (m : BitVec 5) (d : BitVec 16) (b : BitVec 8) :
    packId m d b = m ++ d ++ b := by
  refine BitVec.eq_of_getLsbD_eq (w := 5 + 16 + 8) fun i hi => ?_
  unfold packId
  rw [BitVec.getLsbD_append, BitVec.getLsbD_append]
  interval_cases i <;> simp

theorem idMode_eq (id : BitVec 29) : idMode id = id.extractLsb' 24 5 := by
  unfold idMode; ext i hi; interval_cases i <;> simp

theorem idData16_eq (id : BitVec 29) : idData16 id = id.extractLsb' 8 16 := by
  unfold idData16; ext i hi; interval_cases i <;> simp

theorem idId8_eq (id : BitVec 29) : idId8 id = id.extractLsb' 0 8 := by
  unfold idId8; ext i hi; interval_cases i <;> simp

theorem replyAddr_eq (d : BitVec 16) : replyAddr d = d.extractLsb' 0 8 := by
  unfold replyAddr; ext i hi; interval_cases i <;> simp

theorem masterData16_eq : masterData16 = 0xFD00 := by decide

theorem setIdData16_eq (n : BitVec 8) : setIdData16 n = n ++ 0xFD#8 := by
  refine BitVec.eq_of_getLsbD_eq (w := 8 + 8) fun i hi => ?_
  unfold setIdData16 Config.masterId
  rw [BitVec.getLsbD_append]
  interval_cases i <;> simp

theorem targetId_eq (k : FrameKind) (h : k.matchBits.extractLsb' 0 8 = 0) (t : BitVec 8) :
    targetId k t = k.matchBits.extractLsb' 8 21 ++ t := by
  refine BitVec.eq_of_getLsbD_eq (w := 21 + 8) fun i hi => ?_
  have hz : ∀ j, j < 8 → k.matchBits.getLsbD j = false := fun j hj => by
    have := congrArg (fun v => v.getLsbD j) h
    simpa [hj] using this
  unfold targetId
  rw [BitVec.getLsbD_append, BitVec.getLsbD_or, BitVec.getLsbD_setWidth, BitVec.getLsbD_extractLsb']
  by_cases h8 : i < 8
  · rw [hz i h8]
    simp [h8, show i < 29 by omega]
  · simp [h8, show i - 8 < 21 by omega, show 8 + (i - 8) = i by omega,
      BitVec.getLsbD_of_ge t i (by omega)]

theorem setIdId_eq (n c : BitVec 8) : setIdId n c = 0x07#5 ++ n ++ 0xFD#8 ++ c := by
  refine BitVec.eq_of_getLsbD_eq (w := 5 + 8 + 8 + 8) fun i hi => ?_
  unfold setIdId FrameKind.matchBits
  rw [BitVec.getLsbD_append, BitVec.getLsbD_append, BitVec.getLsbD_append]
  interval_cases i <;> simp

theorem replyId_eq (x a : BitVec 8) : replyId x a = 0x00#5 ++ x ++ a ++ 0xFE#8 := by
  refine BitVec.eq_of_getLsbD_eq (w := 5 + 8 + 8 + 8) fun i hi => ?_
  unfold replyId FrameKind.matchBits
  rw [BitVec.getLsbD_append, BitVec.getLsbD_append, BitVec.getLsbD_append]
  interval_cases i <;> simp

/-! ### Classification -/

/-- The four conditions (42_rx_classify.md R55). -/
theorem qualifies_iff (e : BitVec 1) (l : BitVec 4) (id : BitVec 29) :
    qualifies e l id = true ↔
      e = 1 ∧ l = Config.frameLen ∧ idMode id = Config.modeGetId ∧ idId8 id = Config.respMarker := by
  simp [qualifies, and_assoc]

theorem classifiedOut_cases (e : BitVec 1) (l : BitVec 4) (id : BitVec 29) :
    (qualifies e l id = true ∧
      classifiedOut e l id =
        { decodedOut id with rxIsReply := 1, rxAddr := replyAddr (idData16 id) }) ∨
    (qualifies e l id = false ∧ classifiedOut e l id = decodedOut id) := by
  unfold classifiedOut
  cases h : qualifies e l id
  · exact .inr ⟨rfl, by simp⟩
  · exact .inl ⟨rfl, by simp⟩

/-! ### Decoding -/

theorem decodePorts_idle {p : Ports} (h : p.cmdValid = 0) : decodePorts p = .error .idle := by
  simp [decodePorts, h]

/-- A presented command always decodes (60_exceptions.md R57). -/
theorem decodePorts_ok {p : Ports} (h : p.cmdValid ≠ 0) : ∃ i, decodePorts p = .ok i := by
  unfold decodePorts
  rw [if_neg h]
  split <;> exact ⟨_, rfl⟩

/-- What decoding a written-out frame can give, and when. -/
theorem decodeFrame_ok_iff (k : FrameKind) (f : Frame) (i : Instr) :
    decodeFrame k f = .ok i ↔
      f.ext = 1 ∧ f.len = Config.frameLen ∧ k.admits f.id = true ∧ k.admitsPayload f.data = true ∧
        i = k.read f.id f.data := by
  unfold decodeFrame
  by_cases h1 : f.ext = 1
  case neg => simp only [ne_eq, h1, not_false_eq_true, if_true, false_and, reduceCtorEq]
  by_cases h2 : f.len = Config.frameLen
  case neg => simp only [ne_eq, h1, h2, not_true_eq_false, not_false_eq_true, if_true, if_false,
    false_and, and_false, reduceCtorEq]
  rw [if_neg (not_not.mpr h1), if_neg (not_not.mpr h2)]
  cases h3 : k.admits f.id
  case false => simp
  cases h4 : k.admitsPayload f.data
  case false => simp
  simp [h1, h2, eq_comm]

/-- A written-out frame is never taken for an idle transaction. -/
theorem decodeFrame_ne_idle (k : FrameKind) (f : Frame) : decodeFrame k f ≠ .error .idle := by
  unfold decodeFrame
  repeat' split
  all_goals simp

/-! ### Presenting and stepping -/

theorem presentNext_cases (s : State) :
    (s.queue = [] ∧ s.presentNext = { s with present := Transaction.idle }) ∨
    (∃ t q, s.queue = t :: q ∧ s.presentNext = { s with present := t, queue := q }) := by
  match h : s.queue with
  | [] => exact .inl ⟨rfl, by rw [presentNext_nil h, h]⟩
  | t :: q => exact .inr ⟨t, q, rfl, presentNext_cons h⟩

theorem respond_ok {s : State} {i : Instr} (h : decode s.present = .ok i) : respond s = exec i s := by
  simp [respond, h]

theorem respond_idle {s : State} (h : decode s.present = .error .idle) :
    respond s = .next (s.drive outIdle) := by
  simp [respond, h]

theorem respond_rejected {s : State} {why : DecodeError} (h : decode s.present = .error why)
    (hw : why ≠ .idle) : respond s = .refused (.frameRejected why) := by
  cases why <;> simp_all [respond]

/-- Everything a step that goes on can be: the meaning of a decoded instruction, or an idle transaction. -/
theorem step_cases {s t : State} (h : step s = .next t) :
    (∃ i, decode s.presentNext.present = .ok i ∧ exec i s.presentNext = .next t) ∨
    (decode s.presentNext.present = .error .idle ∧ t = s.presentNext.drive outIdle) := by
  unfold step at h
  cases hd : decode s.presentNext.present with
  | ok i => exact .inl ⟨i, rfl, by rw [respond_ok hd] at h; exact h⟩
  | error why =>
    by_cases hw : why = .idle
    · subst hw
      rw [respond_idle hd] at h
      exact .inr ⟨rfl, by simpa using h.symm⟩
    · rw [respond_rejected hd hw] at h
      cases h

/-- A read from `T_PD` on is the record. -/
theorem readOut_settled {s : State} {elapsed : Nat} (reading : Nat) (h : Config.tPd ≤ elapsed) :
    s.readOut elapsed reading = s.out := by
  simp [State.readOut, h]

/-- A read before `T_PD` is the free value. -/
theorem readOut_unsettled {s : State} {elapsed : Nat} (reading : Nat) (h : elapsed < Config.tPd) :
    s.readOut elapsed reading = Config.unsettledOut reading elapsed := by
  simp [State.readOut, Nat.not_le.mpr h]

end Sys2Proof.Machine
end

