-- ==== Sys2Proof/Laws/PerInstr.lean ====
section
/-! SUPPORT. The family TableRow: an instruction's encoding lies in its own row of spec/opcode_table.json, by the
row's match and mask. -/

namespace Sys2Proof.Laws.TableRow

/-- Format and (match, mask) of each constructor's row of spec/opcode_table.json: a CMD row over `cmd_op`, an
EXT_ID29 row over the identifier. -/
def row : Instr → (BitVec 4 × BitVec 4) ⊕ (BitVec 29 × BitVec 29)
  | .encid _ _ _ => .inl (0x0, 0xF)
  | .decid _ => .inl (0x1, 0xF)
  | .getid _ => .inl (0x2, 0xF)
  | .setid _ _ => .inl (0x3, 0xF)
  | .runen _ => .inl (0x4, 0xF)
  | .wrf32 _ _ _ => .inl (0x5, 0xF)
  | .wru8 _ _ _ => .inl (0x6, 0xF)
  | .classify _ _ _ => .inl (0x7, 0xF)
  | .rsvd _ => .inl (0x8, 0x8)
  | .frameGetIdProbe _ => .inr (0x00FD0000, 0x1FFFFF00)
  | .frameSetId _ _ => .inr (0x0700FD00, 0x1F00FF00)
  | .frameRunEnable _ => .inr (0x03FD0000, 0x1FFFFF00)
  | .frameWriteOneF32 _ _ _ => .inr (0x12FD0000, 0x1FFFFF00)
  | .frameWriteOneU8 _ _ _ => .inr (0x12FD0000, 0x1FFFFF00)
  | .frameGetIdReply _ _ => .inr (0x000000FE, 0x1F0000FF)

/-- The encoding of a well-formed instruction is of its row's format and fits the row's match and mask. -/
def Statement (i : Instr) : Prop :=
  WellFormed i →
    match encode i, row i with
    | .ports p, .inl (m, k) => p.cmdValid = 1 ∧ p.cmdOp &&& k = m
    | .frame _ f, .inr (m, k) => f.ext = 1 ∧ f.len = 8 ∧ f.id &&& k = m
    | _, _ => False

/-- A target in bits 7..0 leaves the bits above alone. -/
theorem targetId_masked (k : FrameKind) (t : BitVec 8) (h : k.matchBits &&& 0x1FFFFF00 = k.matchBits) :
    targetId k t &&& 0x1FFFFF00 = k.matchBits := by
  have ht : t.setWidth 29 &&& (0x1FFFFF00 : BitVec 29) = 0 := by ext i hi; interval_cases i <;> simp
  unfold targetId
  rw [BitVec.and_or_distrib_right, h, ht]
  simp

/-- The mask of a one-op row keeps the whole op. -/
theorem and_full (op : BitVec 4) : op &&& 0xF = op := by revert op; decide

theorem encid (m : BitVec 8) (d : BitVec 16) (b : BitVec 8) : Statement (.encid m d b) :=
  fun _ => ⟨rfl, and_full _⟩
theorem decid (id : BitVec 29) : Statement (.decid id) := fun _ => ⟨rfl, and_full _⟩
theorem getid (t : BitVec 8) : Statement (.getid t) := fun _ => ⟨rfl, and_full _⟩
theorem setid (c n : BitVec 8) : Statement (.setid c n) := fun _ => ⟨rfl, and_full _⟩
theorem runen (t : BitVec 8) : Statement (.runen t) := fun _ => ⟨rfl, and_full _⟩
theorem wrf32 (t : BitVec 8) (x : BitVec 16) (f : BitVec 32) : Statement (.wrf32 t x f) :=
  fun _ => ⟨rfl, and_full _⟩
theorem wru8 (t : BitVec 8) (x : BitVec 16) (v : BitVec 8) : Statement (.wru8 t x v) :=
  fun _ => ⟨rfl, and_full _⟩
theorem classify (e : BitVec 1) (l : BitVec 4) (id : BitVec 29) : Statement (.classify e l id) :=
  fun _ => ⟨rfl, and_full _⟩
theorem rsvd (op : BitVec 4) : Statement (.rsvd op) := fun h => ⟨rfl, by
  change decide (8 ≤ op.toNat) = true at h
  change op &&& 0x8 = 0x8
  revert h; revert op; decide⟩
theorem frameGetIdProbe (t : BitVec 8) : Statement (.frameGetIdProbe t) :=
  fun _ => ⟨rfl, rfl, targetId_masked .getIdProbe t (by decide)⟩
theorem frameSetId (n c : BitVec 8) : Statement (.frameSetId n c) := fun _ => ⟨rfl, rfl, by
  change setIdId n c &&& 0x1F00FF00 = 0x0700FD00
  unfold setIdId FrameKind.matchBits
  ext i hi; interval_cases i <;> simp⟩
theorem frameRunEnable (t : BitVec 8) : Statement (.frameRunEnable t) :=
  fun _ => ⟨rfl, rfl, targetId_masked .runEnable t (by decide)⟩
theorem frameWriteOneF32 (t : BitVec 8) (x : BitVec 16) (f : BitVec 32) :
    Statement (.frameWriteOneF32 t x f) :=
  fun _ => ⟨rfl, rfl, targetId_masked .writeOneF32 t (by decide)⟩
theorem frameWriteOneU8 (t : BitVec 8) (x : BitVec 16) (v : BitVec 8) :
    Statement (.frameWriteOneU8 t x v) :=
  fun _ => ⟨rfl, rfl, targetId_masked .writeOneU8 t (by decide)⟩
theorem frameGetIdReply (x a : BitVec 8) : Statement (.frameGetIdReply x a) := fun _ => ⟨rfl, rfl, by
  change replyId x a &&& 0x1F0000FF = 0x000000FE
  unfold replyId FrameKind.matchBits
  ext i hi; interval_cases i <;> simp⟩

end Sys2Proof.Laws.TableRow
end

