-- ==== Sys2Proof/Tests/Slice0.lean ====
section
/-! SUPPORT. Tests of single steps against the vectors of 95_test_vectors.md (V<n>), the decoder against words
written out from the op map and the identifier patterns, the smoke test of WellFormed, and a witness for
the hypotheses of each statement that has some. -/

namespace Sys2Proof.Tests

open Sys2Proof.Machine

/-! ### Helpers -/

/-- A state with a history on its output and one transaction to come. -/
def waiting (t : Transaction) : State := { State.reset with queue := [t], out := errorOut }

/-- The record one step puts out for a transaction. -/
def outOf (t : Transaction) : Option Out :=
  match step (waiting t) with
  | .next u => some u.out
  | .fault _ => none
  | .refused _ => none

/-- The frame part of a record, as the vectors write it: `tx_valid`, `tx_ext`, `tx_len`, `tx_id`, payload. -/
def tx (t : Transaction) : Option (BitVec 1 × BitVec 1 × BitVec 4 × BitVec 29 × Payload) :=
  (outOf t).map fun o => (o.txValid, o.txExt, o.txLen, o.txId, o.txData)

/-- The decoded part, as the vectors write it: `dec_valid`, `dec`, `rx_is_reply`, `rx_addr`. -/
def rx (t : Transaction) : Option (BitVec 1 × (BitVec 5 × BitVec 16 × BitVec 8) × BitVec 1 × BitVec 8) :=
  (outOf t).map fun o => (o.decValid, (o.decMode, o.decData16, o.decId8), o.rxIsReply, o.rxAddr)

/-- A transaction with every port set to a value of its own. -/
def busy (valid : BitVec 1) (op : BitVec 4) : Ports :=
  { cmdValid := valid, cmdOp := op, modeIn := 0x25, data16In := 0x1234, id8In := 0x56
    addrIn := 0x12, newAddr := 0x05, indexIn := 0x7016, valF32 := 0xBFC00000, valU8 := 0x5A
    rxExt := 1, rxLen := 8, rxId := 0x00FF22FE, rxData := ⟨1, 2, 3, 4, 5, 6, 7, 8⟩ }

/-! ### Single steps -/

/-- V5 -/
theorem test_encid_masks_mode :
    tx (.ports (busy 1 0x0)) = some (1, 1, 8, 0x05123456, Payload.zero) := by decide
/-- V4 -/
theorem test_encid_all_ones :
    tx (encode (.encid 0xFF 0xFFFF 0xFF)) = some (1, 1, 8, 0x1FFFFFFF, Payload.zero) := by decide
/-- V9 -/
theorem test_decid_set_id_frame :
    rx (encode (.decid 0x0705FD12)) = some (1, (0x07, 0x05FD, 0x12), 0, 0xFF) := by decide
/-- V12, V14: a reply on the ports is not classified by DECID. -/
theorem test_decid_does_not_classify :
    rx (.ports (busy 1 0x1)) = some (1, (0x00, 0xFF22, 0xFE), 0, 0xFF) ∧
      rx (encode (.decid 0x10000001)) = some (1, (0x10, 0x0000, 0x01), 0, 0xFF) :=
  ⟨by decide, by decide⟩
/-- V16 -/
theorem test_getid_last_probe :
    tx (encode (.getid 0x7F)) = some (1, 1, 8, 0x00FD007F, Payload.zero) := by decide
/-- V19 -/
theorem test_setid_ordinary :
    tx (.ports (busy 1 0x3)) = some (1, 1, 8, 0x0705FD12, Payload.zero) := by decide
/-- V21: addresses are not checked. -/
theorem test_setid_unchecked :
    tx (encode (.setid 0xFF 0xC8)) = some (1, 1, 8, 0x07C8FDFF, Payload.zero) := by decide
/-- V23 -/
theorem test_runen :
    tx (.ports (busy 1 0x4)) = some (1, 1, 8, 0x03FD0012, Payload.zero) := by decide
/-- V27: LOC_REF = -1.5 -/
theorem test_wrf32_negative :
    tx (.ports (busy 1 0x5)) =
      some (1, 1, 8, 0x12FD0012, ⟨0x16, 0x70, 0, 0, 0x00, 0x00, 0xC0, 0xBF⟩) := by decide
/-- V28 -/
theorem test_wrf32_byte_order :
    tx (encode (.wrf32 0x12 Config.locRef 0x3FC90FDB)) =
      some (1, 1, 8, 0x12FD0012, ⟨0x16, 0x70, 0, 0, 0xDB, 0x0F, 0xC9, 0x3F⟩) := by decide
/-- V32 -/
theorem test_wru8_runmode :
    tx (encode (.wru8 0x12 Config.runmode 5)) =
      some (1, 1, 8, 0x12FD0012, ⟨0x05, 0x70, 0, 0, 0x05, 0, 0, 0⟩) := by decide
/-- V33 -/
theorem test_wru8_value_ff :
    tx (encode (.wru8 0x7F 0x0000 0xFF)) =
      some (1, 1, 8, 0x12FD007F, ⟨0, 0, 0, 0, 0xFF, 0, 0, 0⟩) := by decide
/-- V38, V46, V47: the high byte is not examined, the own probe and an announced 0xFF qualify. -/
theorem test_classify_qualifies :
    rx (.ports (busy 1 0x7)) = some (1, (0x00, 0xFF22, 0xFE), 1, 0x22) ∧
      rx (encode (.classify 1 8 0x00FD00FE)) = some (1, (0x00, 0xFD00, 0xFE), 1, 0x00) ∧
      rx (encode (.classify 1 8 0x0000FFFE)) = some (1, (0x00, 0x00FF, 0xFE), 1, 0xFF) :=
  ⟨by decide, by decide, by decide⟩
/-- V39, V42, V43, V45: each of the four conditions, missing alone. -/
theorem test_classify_each_condition :
    rx (encode (.classify 1 7 0x000022FE)) = some (1, (0x00, 0x0022, 0xFE), 0, 0xFF) ∧
      rx (encode (.classify 0 8 0x000022FE)) = some (1, (0x00, 0x0022, 0xFE), 0, 0xFF) ∧
      rx (encode (.classify 1 8 0x010022FE)) = some (1, (0x01, 0x0022, 0xFE), 0, 0xFF) ∧
      rx (encode (.classify 1 8 0x000022FD)) = some (1, (0x00, 0x0022, 0xFD), 0, 0xFF) :=
  ⟨by decide, by decide, by decide, by decide⟩
/-- V50, V51 -/
theorem test_rsvd :
    outOf (.ports (busy 1 0x8)) = some { outIdle with cmdErr := 1 } ∧
      outOf (.ports (busy 1 0xF)) = some { outIdle with cmdErr := 1 } := by decide
/-- V52: operands present, no command; the error of the command before is gone. -/
theorem test_idle : outOf (.ports (busy 0 0x7)) = some outIdle := by decide
/-- 30_encoding.md R43, first row (V16's frame). -/
theorem test_frame_probe :
    tx (encode (.frameGetIdProbe 0x7F)) = some (1, 1, 8, 0x00FD007F, Payload.zero) := by decide
/-- V19's frame. -/
theorem test_frame_set_id :
    tx (encode (.frameSetId 0x05 0x12)) = some (1, 1, 8, 0x0705FD12, Payload.zero) := by decide
/-- V23's frame. -/
theorem test_frame_run_enable :
    tx (encode (.frameRunEnable 0x12)) = some (1, 1, 8, 0x03FD0012, Payload.zero) := by decide
/-- V25's frame: LIMIT_SPD = 10.0 -/
theorem test_frame_write_f32 :
    tx (encode (.frameWriteOneF32 0x12 Config.limitSpd 0x41200000)) =
      some (1, 1, 8, 0x12FD0012, ⟨0x17, 0x70, 0, 0, 0x00, 0x00, 0x20, 0x41⟩) := by decide
/-- V32's frame. -/
theorem test_frame_write_u8 :
    tx (encode (.frameWriteOneU8 0x12 Config.runmode 5)) =
      some (1, 1, 8, 0x12FD0012, ⟨0x05, 0x70, 0, 0, 0x05, 0, 0, 0⟩) := by decide
/-- V38's frame. -/
theorem test_frame_reply :
    rx (encode (.frameGetIdReply 0xFF 0x22)) = some (1, (0x00, 0xFF22, 0xFE), 1, 0x22) := by decide
/-- A frame outside the row it names is refused, and does not run as another row. -/
theorem test_frame_outside_row :
    decode (.frame .getIdProbe (extFrame 0x03FD0012 Payload.zero)) = .error .wrongIdentifier ∧
      decode (.frame .runEnable (extFrame 0x03FD0012 ⟨1, 0, 0, 0, 0, 0, 0, 0⟩)) =
        .error .wrongPayload ∧
      decode (.frame .getIdReply ⟨0, 8, 0x000022FE, Payload.zero⟩) = .error .notExtended ∧
      decode (.frame .getIdReply ⟨1, 7, 0x000022FE, Payload.zero⟩) = .error .wrongLength := by decide

/-! ### The decoder on written-out words -/

/-- Op map, 30_encoding.md R36. -/
theorem test_decode_commands :
    decodeTableWord 8 0x0 = some (.encid 0 0 0) ∧ decodeTableWord 8 0x1 = some (.decid 0) ∧
      decodeTableWord 8 0x2 = some (.getid 0) ∧ decodeTableWord 8 0x3 = some (.setid 0 0) ∧
      decodeTableWord 8 0x4 = some (.runen 0) ∧ decodeTableWord 8 0x5 = some (.wrf32 0 0 0) ∧
      decodeTableWord 8 0x6 = some (.wru8 0 0 0) ∧ decodeTableWord 8 0x7 = some (.classify 0 0 0) ∧
      decodeTableWord 8 0x8 = some (.rsvd 0x8) ∧ decodeTableWord 8 0xF = some (.rsvd 0xF) := by decide
/-- Each operand port at a value of its own (10_state.md R13). -/
theorem test_decode_operands :
    decode (.ports (busy 1 0x0)) = .ok (.encid 0x25 0x1234 0x56) ∧
      decode (.ports (busy 1 0x1)) = .ok (.decid 0x00FF22FE) ∧
      decode (.ports (busy 1 0x2)) = .ok (.getid 0x12) ∧
      decode (.ports (busy 1 0x3)) = .ok (.setid 0x12 0x05) ∧
      decode (.ports (busy 1 0x4)) = .ok (.runen 0x12) ∧
      decode (.ports (busy 1 0x5)) = .ok (.wrf32 0x12 0x7016 0xBFC00000) ∧
      decode (.ports (busy 1 0x6)) = .ok (.wru8 0x12 0x7016 0x5A) ∧
      decode (.ports (busy 1 0x7)) = .ok (.classify 1 8 0x00FF22FE) ∧
      decode (.ports (busy 1 0xA)) = .ok (.rsvd 0xA) := by decide
/-- Identifier patterns with their operand bits written out, 30_encoding.md R43. -/
theorem test_decode_frames :
    decodeTableWord 32 0b00000111111010000000001111111 = some (.frameGetIdProbe 0x7F) ∧
      decodeTableWord 32 0b00111000001011111110100010010 = some (.frameSetId 0x05 0x12) ∧
      decodeTableWord 32 0b00011111111010000000000010010 = some (.frameRunEnable 0x12) ∧
      decodeTableWord 32 0b10010111111010000000000010010 = some (.frameWriteOneF32 0x12 0 0) ∧
      decodeTableWord 32 0b00000111111110010001011111110 = some (.frameGetIdReply 0xFF 0x22) := by
  decide
/-- The row no identifier alone selects (30_encoding.md R42), its payload written out. -/
theorem test_decode_write_u8 :
    decode (.frame .writeOneU8 ⟨1, 8, 0x12FD0012, ⟨0x05, 0x70, 0, 0, 0x05, 0, 0, 0⟩⟩) =
      .ok (.frameWriteOneU8 0x12 0x7005 0x05) := by decide
/-- Its float reading, byte order by byte order. -/
theorem test_decode_write_f32 :
    decode (.frame .writeOneF32 ⟨1, 8, 0x12FD0012, ⟨0x16, 0x70, 0, 0, 0xDB, 0x0F, 0xC9, 0x3F⟩⟩) =
      .ok (.frameWriteOneF32 0x12 0x7016 0x3FC90FDB) := by decide
/-- Words that are no instruction: too wide, or of no frame kind. -/
theorem test_decode_refuses :
    decodeTableWord 8 0x10 = none ∧ decodeTableWord 32 0x20FD0000 = none ∧
      decodeTableWord 32 0x010022FE = none := by decide
/-- A table word placed as the next transaction runs after reset. -/
theorem test_fetch_word_runs :
    (∃ t, step (State.reset.withFetchWord 8 0x4) = .next t ∧ t.out.txId = 0x03FD0000) ∧
      ∃ t, step (State.reset.withFetchWord 32 0x000022FE) = .next t ∧ t.out.rxAddr = 0x22 :=
  ⟨⟨_, rfl, by decide⟩, ⟨_, rfl, by decide⟩⟩
/-- The one check of WellFormed, with a term it refuses. -/
theorem test_wellformed_refuses_defined_op :
    ¬WellFormed (.rsvd 0x7) ∧ WellFormed (.rsvd 0x8) := by decide
/-- Assembler lines of 30_encoding.md R45 and 95_test_vectors.md P6. -/
theorem test_assembly :
    (AsmLine.encid 0x25 0x1234 0x56).assemble = some (encode (.encid 0x25 0x1234 0x56)) ∧
      (AsmLine.encid 0x100 0 0).assemble = none ∧ (AsmLine.rsvd 9).assemble = some (encode (.rsvd 9)) ∧
      (AsmLine.rsvd 7).assemble = none := by decide

/-! ### Witnesses: a concrete state and operands that meet each statement's hypotheses together -/

theorem witness_IdleRecordIsWhereEveryOpStarts :
    (waiting (.ports (busy 0 0x7))).queue = .ports (busy 0 0x7) :: [] ∧ (busy 0 0x7).cmdValid = 0 ∧
      ∃ m d b, Instr.encid 0x25 0x1234 0x56 = .encid m d b :=
  ⟨rfl, rfl, _, _, _, rfl⟩
theorem witness_StepRunsTheDecodedInstruction :
    (waiting (encode (.rsvd 0xF))).queue = encode (.rsvd 0xF) :: [] ∧
      decode (encode (.rsvd 0xF)) = .ok (.rsvd 0xF) ∧ WellFormed (.rsvd 0xF) := by decide
theorem witness_EmptyQueueStepIsIdle : State.reset.queue = [] := rfl
theorem witness_EncidBuildsTheMaskedIdentifier :
    (busy 1 0x0).cmdValid = 1 ∧ (busy 1 0x0).cmdOp = 0x0 := ⟨rfl, rfl⟩
theorem witness_DecidExtractsTheFields :
    (busy 1 0x1).cmdValid = 1 ∧ (busy 1 0x1).cmdOp = 0x1 := ⟨rfl, rfl⟩
theorem witness_GetidBuildsTheProbe :
    (busy 1 0x2).cmdValid = 1 ∧ (busy 1 0x2).cmdOp = 0x2 := ⟨rfl, rfl⟩
theorem witness_SetidBuildsTheReassignment :
    (busy 1 0x3).cmdValid = 1 ∧ (busy 1 0x3).cmdOp = 0x3 := ⟨rfl, rfl⟩
theorem witness_RunenBuildsTheEnable :
    (busy 1 0x4).cmdValid = 1 ∧ (busy 1 0x4).cmdOp = 0x4 := ⟨rfl, rfl⟩
theorem witness_Wrf32BuildsTheFloatWrite :
    (busy 1 0x5).cmdValid = 1 ∧ (busy 1 0x5).cmdOp = 0x5 := ⟨rfl, rfl⟩
theorem witness_Wru8BuildsTheByteWrite :
    (busy 1 0x6).cmdValid = 1 ∧ (busy 1 0x6).cmdOp = 0x6 := ⟨rfl, rfl⟩
theorem witness_ClassifyQualifiesByTheFourConditions :
    (busy 1 0x7).cmdValid = 1 ∧ (busy 1 0x7).cmdOp = 0x7 := ⟨rfl, rfl⟩
theorem witness_IdentifierRoundTrip : (31#8).toNat ≤ 31 ∧ (0#8).toNat ≤ 31 := by decide
theorem witness_EncidMasksTheMode : 32 ≤ (32#8).toNat ∧ 32 ≤ (255#8).toNat := by decide
theorem witness_ClassifyChecksNothingElse :
    (7#4) ≠ 8 ∧ (9#4) ≠ 8 ∧
      (waiting (.ports (busy 1 0x7))).queue = .ports (busy 1 0x7) :: [] := by decide
theorem witness_ReservedOpRaisesCmdErrAlone :
    (busy 1 0x8).cmdValid = 1 ∧ 8 ≤ (busy 1 0x8).cmdOp.toNat ∧ (busy 1 0x7).cmdOp.toNat < 8 ∧
      (busy 0 0x8).cmdValid = 0 ∧
      (waiting (.ports (busy 1 0x7))).queue = .ports (busy 1 0x7) :: [] := by decide
theorem witness_NoPortValueStopsTheCodec :
    (waiting (.ports (busy 1 0xF))).queue = .ports (busy 1 0xF) :: [] := rfl
theorem witness_EveryBuiltFrameIsExtendedOfLengthEight :
    (waiting (.ports (busy 1 0x2))).queue = .ports (busy 1 0x2) :: [] ∧ (busy 1 0x2).builds ∧
      (busy 1 0x6).builds ∧ (busy 1 0x0).cmdValid = 1 ∧ (busy 1 0x0).cmdOp = 0 := by decide
theorem witness_UnnamedModesPassThrough :
    (0x1F0022FE#29).extractLsb 28 24 ∉ [0x00#5, 0x03#5, 0x07#5, 0x12#5] ∧
      (waiting (.ports (busy 1 0x6))).queue = .ports (busy 1 0x6) :: [] ∧ (busy 1 0x6).builds := by
  decide
theorem witness_RowsOverlapOnlyWhereTheSpecSays :
    FrameKind.writeOneF32 ≠ .writeOneU8 ∧ FrameKind.getIdProbe ≠ .getIdReply ∧
      FrameKind.getIdProbe.admits 0x00FD00FE = true ∧ FrameKind.getIdReply.admits 0x00FD00FE = true := by
  decide
/-- Agreement on used ports holds of port values that differ on every port GETID ignores. -/
theorem witness_UnusedPortsAreIgnored :
    (busy 1 0x2).AgreeOnUsed { Ports.command 0x2 with addrIn := 0x12 } ∧
      busy 1 0x2 ≠ { Ports.command 0x2 with addrIn := 0x12 } :=
  ⟨⟨rfl, rfl, rfl⟩, by decide⟩
theorem witness_FramesAreSentForBuildersAlone :
    (waiting (.ports (busy 1 0x1))).queue = .ports (busy 1 0x1) :: [] := rfl
theorem witness_KeptAddressesNeverLookLikeReplies :
    (waiting (encode (.setid 127 0))).queue =
        .ports { Ports.command 0x3 with addrIn := 127, newAddr := 0 } :: [] ∧
      Ports.builds { Ports.command 0x3 with addrIn := 127, newAddr := 0 } ∧
      Ports.HostKeepsAddresses { Ports.command 0x3 with addrIn := 127, newAddr := 0 } := by decide
theorem witness_SettledReadIsTheCommandsRecord :
    (waiting (.ports (busy 1 0x5))).queue = .ports (busy 1 0x5) :: [] ∧ Config.tPd ≤ Config.tPd :=
  ⟨rfl, Nat.le_refl _⟩
theorem witness_PortStepIsCodecOfThePorts :
    (waiting (.ports (busy 1 0x3))).queue = .ports (busy 1 0x3) :: [] := rfl
/-- Two commands to come: the queue of a run. -/
theorem witness_RunIsTheListOfCodecOfEachCommand :
    ({ State.reset with queue := [.ports (busy 1 0x0), .ports (busy 1 0x1)] } : State).queue =
      [busy 1 0x0, busy 1 0x1].map .ports := rfl
theorem witness_OutputsForgetTheHistory :
    (waiting (encode (.getid 1))).queue = ({ State.reset with queue := [encode (.getid 1)] } : State).queue ∧
      waiting (encode (.getid 1)) ≠ { State.reset with queue := [encode (.getid 1)] } := by decide
theorem witness_ReorderingCommandsOnlyReordersOutputs :
    ({ State.reset with queue := [.ports (busy 1 0), .ports (busy 1 1)] } : State).queue =
        [busy 1 0, busy 1 1].map .ports ∧
      ({ State.reset with queue := [.ports (busy 1 1), .ports (busy 1 0)] } : State).queue =
        [busy 1 1, busy 1 0].map .ports ∧
      [busy 1 0, busy 1 1].Perm [busy 1 1, busy 1 0] :=
  ⟨rfl, rfl, List.Perm.swap _ _ _⟩
/-- The idle state follows its inputs and steps on through a real command. -/
theorem witness_StepKeepsOutFollowingInputs :
    OutFollowsInputs { State.reset with queue := [encode (.getid 1)] } ∧
      ∃ t, step { State.reset with queue := [encode (.getid 1)] } = .next t :=
  ⟨rfl, _, rfl⟩
theorem witness_StepKeepsOutLegal :
    (waiting (encode (.classify 1 8 0x000022FE))).out.Legal ∧
      ∃ t, step (waiting (encode (.classify 1 8 0x000022FE))) = .next t :=
  ⟨by decide, _, rfl⟩
theorem witness_FrameStepIsTheFramesRecord :
    (waiting (encode (.frameSetId 5 0x12))).queue =
        .frame .setId (extFrame (setIdId 5 0x12) Payload.zero) :: [] ∧
      FrameFits .setId (extFrame (setIdId 5 0x12) Payload.zero) ∧
      ¬FrameFits .setId (extFrame 0 Payload.zero) :=
  ⟨rfl, by unfold FrameFits; decide, by unfold FrameFits; decide⟩
theorem witness_DecodeOfEncodeIsTheInstruction : WellFormed (.rsvd 0x8) := by decide
theorem witness_EncodeOfDecodeIsTheTransaction :
    decode (.frame .setId (extFrame 0x0705FD12 Payload.zero)) = .ok (.frameSetId 5 0x12) ∧
      FrameKind.setId ≠ .getIdReply ∧
      decode (.frame .getIdReply (extFrame 0x00FF22FE ⟨1, 2, 3, 4, 5, 6, 7, 8⟩)) =
        .ok (.frameGetIdReply 0xFF 0x22) ∧
      decode (.ports (busy 1 0x2)) = .ok (.getid 0x12) := by decide
theorem witness_LinesAssembleToTheirInstructions : 8 ≤ (8#4).toNat ∧ 8 ≤ (15#4).toNat := by decide

end Sys2Proof.Tests
end

/-! PROOFS. The family 10_state.md: O0 as the record every op starts from (R15), and a run as the list of
`codec` of each command (R16). -/

namespace Sys2Proof.Machine

/-! ### What an instruction drives -/

/-- The record an instruction drives on `out`, by the record its meaning names; `exec_eq_drive` ties it to `exec`. -/
def recordOf : Instr → Out
  | .encid m d b => sendOut (builtFrame (maskMode m) d b Payload.zero)
  | .decid id => decodedOut id
  | .getid t => sendOut (builtFrame Config.modeGetId masterData16 t Payload.zero)
  | .setid c n => sendOut (builtFrame Config.modeSetId (setIdData16 n) c Payload.zero)
  | .runen t => sendOut (builtFrame Config.modeRunEnable masterData16 t Payload.zero)
  | .wrf32 t x f => sendOut (builtFrame Config.modeWriteOne masterData16 t (payloadF32 x f))
  | .wru8 t x v => sendOut (builtFrame Config.modeWriteOne masterData16 t (payloadU8 x v))
  | .classify e l id => classifiedOut e l id
  | .rsvd _ => errorOut
  | .frameGetIdProbe t => sendOut (extFrame (targetId .getIdProbe t) Payload.zero)
  | .frameSetId n c => sendOut (extFrame (setIdId n c) Payload.zero)
  | .frameRunEnable t => sendOut (extFrame (targetId .runEnable t) Payload.zero)
  | .frameWriteOneF32 t x f => sendOut (extFrame (targetId .writeOneF32 t) (payloadF32 x f))
  | .frameWriteOneU8 t x v => sendOut (extFrame (targetId .writeOneU8 t) (payloadU8 x v))
  | .frameGetIdReply x a => classifiedOut 1 Config.frameLen (replyId x a)

/-- An instruction's whole effect is to drive its record, which no state decides (10_state.md R16). -/
theorem exec_eq_drive (i : Instr) (s : State) : exec i s = .next (s.drive (recordOf i)) := by
  cases i <;> rfl

/-! ### A step on the input ports -/

theorem step_ports_of_decode {s : State} {p : Ports} {q : List Transaction} {i : Instr}
    (hq : s.queue = .ports p :: q) (hd : decodePorts p = .ok i) :
    step s = .next ⟨.ports p, q, recordOf i⟩ := by
  rw [step, presentNext_cons hq]
  exact (respond_ok (s := ⟨.ports p, q, s.out⟩) hd).trans (exec_eq_drive i _)

theorem step_ports_of_idle {s : State} {p : Ports} {q : List Transaction}
    (hq : s.queue = .ports p :: q) (hv : p.cmdValid = 0) :
    step s = .next ⟨.ports p, q, outIdle⟩ := by
  rw [step, presentNext_cons hq]
  exact respond_idle (s := ⟨.ports p, q, s.out⟩) (decodePorts_idle hv)

/-! ### The machine's records are those of `codec` -/

/-- The packed identifier of a built frame is the concatenation of its fields (30_encoding.md R38). -/
theorem sendOut_builtFrame (m : BitVec 5) (d : BitVec 16) (b : BitVec 8) (data : Payload) :
    sendOut (builtFrame m d b data) = txRecord m d b data := by
  unfold builtFrame
  rw [packId_eq_append]
  rfl

/-- Every builder but SETID sends `MASTER_ID` above a zero byte as `data16` (30_encoding.md R40). -/
theorem sendOut_masterFrame (m : BitVec 5) (t : BitVec 8) (data : Payload) :
    sendOut (builtFrame m masterData16 t data) = txRecord m 0xFD00 t data := by
  rw [sendOut_builtFrame, masterData16_eq]

/-- The shifts and masks of DECID are slices of the identifier (40_identifier.md R47). -/
theorem decodedOut_eq_rxRecord (id : BitVec 29) : decodedOut id = rxRecord id 0 0xFF := by
  unfold decodedOut
  rw [idMode_eq, idData16_eq, idId8_eq]
  rfl

/-- The discovered address, the low byte of `data16`, is bits 15..8 of the identifier (42_rx_classify.md R55). -/
theorem replyAddr_idData16 (id : BitVec 29) : replyAddr (idData16 id) = id.extractLsb 15 8 := by
  rw [replyAddr_eq, idData16_eq]
  ext i hi
  simp [show i < 16 by omega]

theorem qualifies_iff_slices (e : BitVec 1) (l : BitVec 4) (id : BitVec 29) :
    qualifies e l id = true ↔
      e = 1 ∧ l = 8 ∧ id.extractLsb 28 24 = 0x00#5 ∧ id.extractLsb 7 0 = 0xFE#8 := by
  rw [qualifies_iff, idMode_eq, idId8_eq]
  rfl

theorem classifiedOut_eq_classifyRecord (e : BitVec 1) (l : BitVec 4) (id : BitVec 29) :
    classifiedOut e l id = classifyRecord e l id := by
  unfold classifyRecord
  rcases classifiedOut_cases e l id with ⟨hq, hout⟩ | ⟨hq, hout⟩
  · rw [hout, if_pos ((qualifies_iff_slices e l id).mp hq), decodedOut_eq_rxRecord, replyAddr_idData16]
    rfl
  · rw [hout, if_neg (fun h => by simp [(qualifies_iff_slices e l id).mpr h] at hq),
      decodedOut_eq_rxRecord]

/-- The decoded instruction drives the record of the reference function, op by op (30_encoding.md R36). -/
theorem recordOf_eq_codec {p : Ports} {i : Instr} (hd : decodePorts p = .ok i) :
    recordOf i = codec p := by
  by_cases hv : p.cmdValid = 0
  · rw [decodePorts_idle hv] at hd
    cases hd
  unfold decodePorts at hd
  unfold codec
  rw [if_neg hv] at hd ⊢
  generalize p.cmdOp.toNat = op at hd ⊢
  match op with
  | 0 => cases hd; rw [recordOf, sendOut_builtFrame, maskMode_eq]; rfl
  | 1 => cases hd; exact decodedOut_eq_rxRecord _
  | 2 => cases hd; exact sendOut_masterFrame ..
  | 3 => cases hd; rw [recordOf, sendOut_builtFrame, setIdData16_eq]; rfl
  | 4 => cases hd; exact sendOut_masterFrame ..
  | 5 => cases hd; exact sendOut_masterFrame ..
  | 6 => cases hd; exact sendOut_masterFrame ..
  | 7 => cases hd; exact classifiedOut_eq_classifyRecord ..
  | _ + 8 => cases hd; rfl

/-- On a port transaction a step is `codec` of the ports, whatever the state was (10_state.md R16). -/
theorem step_ports_eq_codec {s : State} {p : Ports} {q : List Transaction}
    (hq : s.queue = .ports p :: q) : step s = .next ⟨.ports p, q, codec p⟩ := by
  by_cases hv : p.cmdValid = 0
  · rw [step_ports_of_idle hq hv, codec, if_pos hv]
  · obtain ⟨i, hd⟩ := decodePorts_ok hv
    rw [step_ports_of_decode hq hd, recordOf_eq_codec hd]

/-! ### Runs -/

theorem runOuts_succ_of_next {s t : State} (h : step s = .next t) (n : Nat) :
    runOuts (n + 1) s = t.out :: runOuts n t := by
  simp [runOuts, h]

/-- Settles O33, by induction on the commands: each step drives `codec` of the first one and leaves the others
queued, and the induction hypothesis is for any state they stand in. -/
theorem runIsTheListOfCodecOfEachCommand : Obligations.RunIsTheListOfCodecOfEachCommand := by
  intro ps
  induction ps with
  | nil => intro s _; rfl
  | cons p ps ih =>
    intro s hq
    rw [List.length_cons, runOuts_succ_of_next (step_ports_eq_codec hq), ih _ rfl, List.map_cons]

/-! ### What each record leaves at O0 -/

theorem sendOut_clear_tx (f : Frame) :
    { sendOut f with txValid := 0, txExt := 0, txLen := 0, txId := 0, txData := Payload.zero } =
      outIdle := rfl

theorem decodedOut_clear_dec (id : BitVec 29) :
    { decodedOut id with decValid := 0, decMode := 0, decData16 := 0, decId8 := 0 } = outIdle := rfl

theorem classifiedOut_clear_rx (e : BitVec 1) (l : BitVec 4) (id : BitVec 29) :
    { classifiedOut e l id with
      decValid := 0, decMode := 0, decData16 := 0, decId8 := 0, rxIsReply := 0
      rxAddr := 0xFF } = outIdle := by
  rcases classifiedOut_cases e l id with ⟨_, hout⟩ | ⟨_, hout⟩ <;> rw [hout] <;> rfl

theorem errorOut_clear_err : { errorOut with cmdErr := 0 } = outIdle := rfl

/-- ENCID and the five builders put one frame on `tx_*` (30_encoding.md R39). -/
theorem recordOf_builder {i : Instr}
    (hi : (∃ m d b, i = .encid m d b) ∨ (∃ t, i = .getid t) ∨ (∃ c n, i = .setid c n) ∨
      (∃ t, i = .runen t) ∨ (∃ t x f, i = .wrf32 t x f) ∨ (∃ t x v, i = .wru8 t x v)) :
    ∃ f, recordOf i = sendOut f := by
  rcases hi with ⟨m, d, b, rfl⟩ | ⟨t, rfl⟩ | ⟨c, n, rfl⟩ | ⟨t, rfl⟩ | ⟨t, x, f, rfl⟩ | ⟨t, x, v, rfl⟩ <;>
    exact ⟨_, rfl⟩

/-- Settles O1: each op's record is one of four, and each of these is O0 outside the fields its rule names. -/
theorem idleRecordIsWhereEveryOpStarts : Obligations.IdleRecordIsWhereEveryOpStarts := by
  refine ⟨rfl, fun s p q hq hv => step_ports_of_idle hq hv, fun s i hi => ?builders,
    fun s id => ⟨_, exec_eq_drive _ s, decodedOut_clear_dec id⟩,
    fun s e l id => ⟨_, exec_eq_drive _ s, classifiedOut_clear_rx e l id⟩,
    fun s op => ⟨_, exec_eq_drive _ s, errorOut_clear_err⟩⟩
  case builders =>
    obtain ⟨f, hf⟩ := recordOf_builder hi
    refine ⟨_, exec_eq_drive i s, ?_⟩
    rw [drive_out, hf]
    exact sendOut_clear_tx f

end Sys2Proof.Machine

/-! PROOFS. The family 20_memory.md: the byte order of the payload (R24 to R27). -/

namespace Sys2Proof

/-! ### The payload layouts, byte by byte -/

/-- The index half of the float layout (20_memory.md R25). -/
theorem payloadF32_indexBytes (x : BitVec 16) (f : BitVec 32) :
    (payloadF32 x f).byte 0 = x.extractLsb 7 0 ∧ (payloadF32 x f).byte 1 = x.extractLsb 15 8 ∧
      (payloadF32 x f).byte 2 = 0 ∧ (payloadF32 x f).byte 3 = 0 :=
  ⟨rfl, rfl, rfl, rfl⟩

/-- The value half of the float layout (20_memory.md R26). -/
theorem payloadF32_valueByte (x : BitVec 16) (f : BitVec 32) (k : Fin 4) :
    (payloadF32 x f).byte ⟨4 + k.val, by omega⟩ = byteAt f k := by
  match k with
  | 0 => rfl
  | 1 => rfl
  | 2 => rfl
  | 3 => rfl

/-- The index half of the byte layout is that of the float layout (20_memory.md R25). -/
theorem payloadU8_indexBytes (x : BitVec 16) (v : BitVec 8) :
    (payloadU8 x v).byte 0 = x.extractLsb 7 0 ∧ (payloadU8 x v).byte 1 = x.extractLsb 15 8 ∧
      (payloadU8 x v).byte 2 = 0 ∧ (payloadU8 x v).byte 3 = 0 :=
  payloadF32_indexBytes x 0

/-- The value half of the byte layout (20_memory.md R27). -/
theorem payloadU8_valueBytes (x : BitVec 16) (v : BitVec 8) :
    (payloadU8 x v).byte 4 = v ∧ (payloadU8 x v).byte 5 = 0 ∧
      (payloadU8 x v).byte 6 = 0 ∧ (payloadU8 x v).byte 7 = 0 :=
  ⟨rfl, rfl, rfl, rfl⟩

/-- The most significant byte of a word carries its sign bit. -/
theorem byteAt_top_msb {w k : Nat} (h : w = 8 * k + 8) (v : BitVec w) : (byteAt v k).msb = v.msb := by
  subst h
  simp [byteAt, BitVec.msb_eq_getLsbD_last]

end Sys2Proof

namespace Sys2Proof.Machine

/-! ### The payload on `tx_data` -/

theorem exec_wrf32_txData (a : BitVec 8) (x : BitVec 16) (f : BitVec 32) (s : State) :
    ∃ t, exec (.wrf32 a x f) s = .next t ∧ t.out.txData = payloadF32 x f :=
  ⟨_, exec_eq_drive _ s, rfl⟩

theorem exec_wru8_txData (a : BitVec 8) (x : BitVec 16) (v : BitVec 8) (s : State) :
    ∃ t, exec (.wru8 a x v) s = .next t ∧ t.out.txData = payloadU8 x v :=
  ⟨_, exec_eq_drive _ s, rfl⟩

/-- Settles O18: each kind puts its layout on `tx_data`, and the layout's index and value halves are as the
rules give them; byte 7 is byte 3 of the pattern, whose top bit is the pattern's. -/
theorem writeOnePayloadIsLittleEndian : Obligations.WriteOnePayloadIsLittleEndian := by
  refine ⟨fun a x f s => ?wrf32, fun a x v s => ?wru8⟩
  case wrf32 =>
    obtain ⟨t, hexec, hdata⟩ := exec_wrf32_txData a x f s
    obtain ⟨hlo, hhi, hz2, hz3⟩ := payloadF32_indexBytes x f
    have htop : (payloadF32 x f).byte 7 = byteAt f 3 := payloadF32_valueByte x f 3
    have hsign : ((payloadF32 x f).byte 7).msb = f.msb := by rw [htop, byteAt_top_msb (k := 3) rfl]
    refine ⟨t, hexec, ?_⟩
    rw [hdata]
    exact ⟨hlo, hhi, hz2, hz3, payloadF32_valueByte x f, hsign⟩
  case wru8 =>
    obtain ⟨t, hexec, hdata⟩ := exec_wru8_txData a x v s
    obtain ⟨hlo, hhi, hz2, hz3⟩ := payloadU8_indexBytes x v
    refine ⟨t, hexec, ?_⟩
    rw [hdata]
    exact ⟨hlo, hhi, hz2, hz3, payloadU8_valueBytes x v⟩

end Sys2Proof.Machine

/-! PROOFS. The family 30_encoding.md: the form of every built frame (R39), and modes without a named kind
(R44). -/

namespace Sys2Proof.Machine

/-! ### The fields of a record -/

/-- The mode is the top field of the identifier (30_encoding.md R38). -/
theorem txRecord_mode (m : BitVec 5) (d : BitVec 16) (b : BitVec 8) (data : Payload) :
    (txRecord m d b data).txId.extractLsb 28 24 = m := by
  change (m ++ d ++ b).extractLsb' 24 5 = m
  rw [BitVec.extractLsb'_append_eq_of_le (by decide), BitVec.extractLsb'_append_eq_of_le (by decide)]
  exact BitVec.extractLsb'_eq_self

theorem classifyRecord_txValid (e : BitVec 1) (l : BitVec 4) (id : BitVec 29) :
    (classifyRecord e l id).txValid = 0 := by
  unfold classifyRecord
  split <;> rfl

/-- Only the GET_ID mode makes a reply (42_rx_classify.md R55). -/
theorem classifyRecord_not_reply {e : BitVec 1} {l : BitVec 4} {id : BitVec 29}
    (h : id.extractLsb 28 24 ≠ 0x00#5) : (classifyRecord e l id).rxIsReply = 0 := by
  rw [classifyRecord, if_neg fun ⟨_, _, hmode, _⟩ => h hmode]
  rfl

/-! ### Which ports put a frame out -/

/-- What `codec` can put on `tx_*`: a builder's frame, of one of the four named modes; ENCID's, of any mode; or
none (30_encoding.md R36, R39). -/
theorem codec_tx_cases (p : Ports) :
    (p.builds ∧ ∃ m ∈ [0x00#5, 0x03#5, 0x07#5, 0x12#5], ∃ d b data, codec p = txRecord m d b data) ∨
    (p.cmdValid = 1 ∧ p.cmdOp = 0 ∧
      codec p = txRecord (p.modeIn.extractLsb 4 0) p.data16In p.id8In Payload.zero) ∨
    (¬p.builds ∧ ¬(p.cmdValid = 1 ∧ p.cmdOp = 0) ∧ (codec p).txValid = 0) := by
  by_cases hv : p.cmdValid = 0
  · have hidle : codec p = outIdle := if_pos hv
    exact .inr (.inr ⟨by simp [Ports.builds, hv], by simp [hv], by rw [hidle]; rfl⟩)
  have hvalid : p.cmdValid = 1 := (BitVec.eq_zero_or_eq_one _).resolve_left hv
  have hzero : p.cmdOp = 0 ↔ p.cmdOp.toNat = 0 := BitVec.toNat_inj.symm
  unfold Ports.builds codec
  rw [hzero, if_neg hv]
  generalize p.cmdOp.toNat = op
  match op with
  | 0 => exact .inr (.inl ⟨hvalid, rfl, rfl⟩)
  | 1 => exact .inr (.inr ⟨by omega, by omega, rfl⟩)
  | 2 => exact .inl ⟨⟨hvalid, by omega, by omega⟩, 0x00, by decide, _, _, _, rfl⟩
  | 3 => exact .inl ⟨⟨hvalid, by omega, by omega⟩, 0x07, by decide, _, _, _, rfl⟩
  | 4 => exact .inl ⟨⟨hvalid, by omega, by omega⟩, 0x03, by decide, _, _, _, rfl⟩
  | 5 => exact .inl ⟨⟨hvalid, by omega, by omega⟩, 0x12, by decide, _, _, _, rfl⟩
  | 6 => exact .inl ⟨⟨hvalid, by omega, by omega⟩, 0x12, by decide, _, _, _, rfl⟩
  | 7 => exact .inr (.inr ⟨by omega, by omega, classifyRecord_txValid ..⟩)
  | _ + 8 => exact .inr (.inr ⟨by omega, by omega, rfl⟩)

/-- Settles O24: a step on ports drives `codec`, whose frame is a builder's, ENCID's, or absent. -/
theorem everyBuiltFrameIsExtendedOfLengthEight :
    Obligations.EveryBuiltFrameIsExtendedOfLengthEight := by
  intro s p q hq
  refine ⟨_, step_ports_eq_codec hq, ?_⟩
  rcases codec_tx_cases p with ⟨_, m, _, d, b, data, hout⟩ | ⟨_, _, hout⟩ | ⟨hbuild, hencid, hnone⟩
  · rw [hout]
    exact ⟨fun _ => ⟨rfl, rfl⟩, fun _ => rfl⟩
  · rw [hout]
    exact ⟨fun _ => ⟨rfl, rfl⟩, fun _ => rfl⟩
  · exact ⟨fun hsent => by simp [hnone] at hsent, fun h => absurd h (not_or.mpr ⟨hbuild, hencid⟩)⟩

/-! ### Modes -/

/-- A builder's frame carries one of the four named modes (30_encoding.md R44). -/
theorem codec_mode_of_builds {p : Ports} (h : p.builds) :
    (codec p).txId.extractLsb 28 24 ∈ [0x00#5, 0x03#5, 0x07#5, 0x12#5] := by
  rcases codec_tx_cases p with ⟨_, m, hm, d, b, data, hout⟩ | ⟨_, hop, _⟩ | ⟨hnot, _⟩
  · rw [hout, txRecord_mode]
    exact hm
  · simp [Ports.builds, hop] at h
  · exact absurd h hnot

/-- Settles O25: packing and unpacking keep every mode, a reply has mode 0x00, which is a named one, and a
builder's mode is a constant of its op. -/
theorem unnamedModesPassThrough : Obligations.UnnamedModesPassThrough := by
  refine ⟨fun m d b s => ⟨_, exec_eq_drive _ s, ?encid⟩, fun id s => ⟨_, exec_eq_drive _ s, ?decid⟩,
    fun e l id s hmode => ⟨_, exec_eq_drive _ s, ?classify⟩,
    fun s p q hq hb => ⟨_, step_ports_eq_codec hq, codec_mode_of_builds hb⟩⟩
  case encid =>
    rw [drive_out, recordOf, sendOut_builtFrame, txRecord_mode, maskMode_eq]
    rfl
  case decid =>
    rw [drive_out, recordOf, decodedOut_eq_rxRecord]
    rfl
  case classify =>
    rw [drive_out, recordOf, classifiedOut_eq_classifyRecord]
    exact classifyRecord_not_reply fun h0 => hmode (by simp [h0])

end Sys2Proof.Machine

/-! PROOFS. The family 40_identifier.md: ENCID (R46) and DECID (R47), what decodes to them and their records. -/

namespace Sys2Proof.Machine

/-! ### The ports of the two ops -/

theorem decodePorts_encid {p : Ports} (hvalid : p.cmdValid = 1) (hop : p.cmdOp = 0x0) :
    decodePorts p = .ok (.encid p.modeIn p.data16In p.id8In) := by
  simp [decodePorts, hvalid, hop]

theorem decodePorts_decid {p : Ports} (hvalid : p.cmdValid = 1) (hop : p.cmdOp = 0x1) :
    decodePorts p = .ok (.decid p.rxId) := by
  simp [decodePorts, hvalid, hop]

/-! ### The fields of a packed identifier -/

theorem txRecord_data16 (m : BitVec 5) (d : BitVec 16) (b : BitVec 8) (data : Payload) :
    (txRecord m d b data).txId.extractLsb 23 8 = d := by
  change (m ++ d ++ b).extractLsb' 8 16 = d
  rw [BitVec.extractLsb'_append_eq_of_le (by decide)]
  exact BitVec.extractLsb'_append_eq_right

theorem txRecord_id8 (m : BitVec 5) (d : BitVec 16) (b : BitVec 8) (data : Payload) :
    (txRecord m d b data).txId.extractLsb 7 0 = b :=
  BitVec.extractLsb'_append_eq_right

/-- The 5-bit field holds all of `mode & 0x1F` (40_identifier.md R46). -/
theorem maskMode_setWidth (m : BitVec 8) : (maskMode m).setWidth 29 = (m &&& 0x1F).setWidth 29 := by
  revert m
  decide

/-! ### What the two ops drive -/

theorem exec_encid (m : BitVec 8) (d : BitVec 16) (b : BitVec 8) (s : State) :
    exec (.encid m d b) s = .next (s.drive (txRecord (m.extractLsb 4 0) d b Payload.zero)) := by
  rw [exec_eq_drive, recordOf, sendOut_builtFrame, maskMode_eq]
  rfl

/-- ENCID reads no more of `mode_in` than its bits 4..0 (40_identifier.md R46). -/
theorem exec_encid_congr_mode {m n : BitVec 8} (h : m.extractLsb 4 0 = n.extractLsb 4 0)
    (d : BitVec 16) (b : BitVec 8) (s : State) : exec (.encid m d b) s = exec (.encid n d b) s := by
  rw [exec_encid, exec_encid, h]

/-- ENCID's whole record with the identifier by the shifts of the source (40_identifier.md R46). -/
theorem exec_encid_shifts (m : BitVec 8) (d : BitVec 16) (b : BitVec 8) (s : State) :
    exec (.encid m d b) s = .next { s with out := { outIdle with
      txValid := 1, txExt := 1, txLen := 8
      txId := ((m &&& 0x1F).setWidth 29 <<< 24) ||| (d.setWidth 29 <<< 8) ||| b.setWidth 29
      txData := ⟨0, 0, 0, 0, 0, 0, 0, 0⟩ } } := by
  rw [← maskMode_setWidth]
  exact exec_eq_drive (.encid m d b) s

theorem exec_decid (id : BitVec 29) (s : State) :
    exec (.decid id) s = .next (s.drive (rxRecord id 0 0xFF)) := by
  rw [exec_eq_drive, recordOf, decodedOut_eq_rxRecord]

/-- Settles O7: the record is that of `exec_encid`, whose identifier is the concatenation of the low five mode
bits, `data16` and `id8`; the corner cases are two modes with the same low bits and the two extreme operands. -/
theorem encidBuildsTheMaskedIdentifier : Obligations.EncidBuildsTheMaskedIdentifier := by
  refine ⟨fun p hvalid hop => decodePorts_encid hvalid hop, exec_encid_shifts,
    fun d b s => ⟨exec_encid_congr_mode (by decide) d b s, exec_encid_congr_mode (by decide) d b s⟩,
    fun m d b s => ⟨_, exec_encid m d b s, ?fields⟩,
    fun s => ⟨⟨_, exec_encid 0 0 0 s, ?zeros⟩, ⟨_, exec_encid 0xFF 0xFFFF 0xFF s, ?ones⟩⟩⟩
  case zeros => rw [drive_out]; decide
  case ones => rw [drive_out]; decide
  case fields =>
    rw [drive_out]
    exact ⟨txRecord_mode .., txRecord_data16 .., txRecord_id8 ..⟩

/-- Settles O8: the record is that of `exec_decid`, made of slices, and the slices are the model's shifts and
masks. -/
theorem decidExtractsTheFields : Obligations.DecidExtractsTheFields :=
  ⟨fun _ hvalid hop => decodePorts_decid hvalid hop, exec_decid,
    fun id => ⟨(idMode_eq id).symm, (idData16_eq id).symm, (idId8_eq id).symm⟩⟩

end Sys2Proof.Machine

/-! PROOFS. The family 41_frame_build.md: GETID (R50), SETID (R51), RUNEN (R52) and WRU8 (R54), what decodes to them
and the frames they build. -/

namespace Sys2Proof.Machine

/-! ### The ports of the builders -/

theorem decodePorts_getid {p : Ports} (hvalid : p.cmdValid = 1) (hop : p.cmdOp = 0x2) :
    decodePorts p = .ok (.getid p.addrIn) := by
  simp [decodePorts, hvalid, hop]

theorem decodePorts_setid {p : Ports} (hvalid : p.cmdValid = 1) (hop : p.cmdOp = 0x3) :
    decodePorts p = .ok (.setid p.addrIn p.newAddr) := by
  simp [decodePorts, hvalid, hop]

theorem decodePorts_runen {p : Ports} (hvalid : p.cmdValid = 1) (hop : p.cmdOp = 0x4) :
    decodePorts p = .ok (.runen p.addrIn) := by
  simp [decodePorts, hvalid, hop]

theorem decodePorts_wru8 {p : Ports} (hvalid : p.cmdValid = 1) (hop : p.cmdOp = 0x6) :
    decodePorts p = .ok (.wru8 p.addrIn p.indexIn p.valU8) := by
  simp [decodePorts, hvalid, hop]

/-! ### Built identifiers and the rows' patterns -/

/-- With `MASTER_ID` as `data16` the identifier is the row's pattern with the target in bits 7..0, when it is the
pattern for target 0 (30_encoding.md R40, R43). -/
theorem packId_masterData16 {m : BitVec 5} {k : FrameKind} (h : packId m masterData16 0 = k.matchBits)
    (t : BitVec 8) : packId m masterData16 t = targetId k t := by
  rw [targetId, ← h]
  simp [packId]

theorem builtFrame_masterData16 {m : BitVec 5} {k : FrameKind}
    (h : packId m masterData16 0 = k.matchBits) (t : BitVec 8) (data : Payload) :
    builtFrame m masterData16 t data = extFrame (targetId k t) data := by
  rw [builtFrame, packId_masterData16 h]

/-- `data16` written as its two bytes, as the patterns of R43 have it. -/
theorem append_data16_bytes (m : BitVec 5) (hi lo b : BitVec 8) :
    m ++ (hi ++ lo) ++ b = m ++ hi ++ lo ++ b :=
  congrArg (· ++ b) (BitVec.append_assoc (x₁ := m) (x₂ := hi) (x₃ := lo)).symm

theorem packId_setIdData16 (n c : BitVec 8) :
    packId Config.modeSetId (setIdData16 n) c = setIdId n c := by
  rw [packId_eq_append, setIdData16_eq, append_data16_bytes, setIdId_eq]
  rfl

/-! ### The bytes of `data16` in an identifier -/

theorem extractLsb_data16_hi (m : BitVec 5) (hi lo b : BitVec 8) :
    (m ++ hi ++ lo ++ b).extractLsb 23 16 = hi := by
  change (m ++ hi ++ lo ++ b).extractLsb' 16 8 = hi
  rw [BitVec.extractLsb'_append_eq_of_le (by decide), BitVec.extractLsb'_append_eq_of_le (by decide)]
  exact BitVec.extractLsb'_append_eq_right

theorem extractLsb_data16_lo (m : BitVec 5) (hi lo b : BitVec 8) :
    (m ++ hi ++ lo ++ b).extractLsb 15 8 = lo := by
  change (m ++ hi ++ lo ++ b).extractLsb' 8 8 = lo
  rw [BitVec.extractLsb'_append_eq_of_le (by decide)]
  exact BitVec.extractLsb'_append_eq_right

/-- The record whose `data16` is given as two bytes has the concatenation of four fields for identifier. -/
theorem txRecord_txId_bytes (m : BitVec 5) (hi lo b : BitVec 8) (data : Payload) :
    (txRecord m (hi ++ lo) b data).txId = m ++ hi ++ lo ++ b :=
  append_data16_bytes m hi lo b

/-- A SET_ID identifier has the new address above `MASTER_ID`, the reverse of the other kinds (41_frame_build.md
R51). -/
theorem setIdId_fields (n c : BitVec 8) :
    (setIdId n c).extractLsb 28 24 = 0x07#5 ∧ (setIdId n c).extractLsb 23 16 = n ∧
      (setIdId n c).extractLsb 15 8 = 0xFD#8 ∧ (setIdId n c).extractLsb 7 0 = c := by
  have hid : setIdId n c = (txRecord 0x07#5 (n ++ 0xFD#8) c Payload.zero).txId := by
    rw [setIdId_eq, txRecord_txId_bytes]
  refine ⟨by rw [hid, txRecord_mode], ?newAddr, ?masterId, by rw [hid, txRecord_id8]⟩
  case newAddr => rw [setIdId_eq, extractLsb_data16_hi]
  case masterId => rw [setIdId_eq, extractLsb_data16_lo]

/-! ### What the builders drive -/

theorem exec_getid (t : BitVec 8) (s : State) :
    exec (.getid t) s = .next (s.drive (sendOut (extFrame (targetId .getIdProbe t) Payload.zero))) := by
  rw [exec_eq_drive, recordOf, builtFrame_masterData16 (k := .getIdProbe) (by decide)]

theorem exec_setid (c n : BitVec 8) (s : State) :
    exec (.setid c n) s = .next (s.drive (sendOut (extFrame (setIdId n c) Payload.zero))) := by
  rw [exec_eq_drive, recordOf, builtFrame, packId_setIdData16]

theorem exec_runen (t : BitVec 8) (s : State) :
    exec (.runen t) s = .next (s.drive (sendOut (extFrame (targetId .runEnable t) Payload.zero))) := by
  rw [exec_eq_drive, recordOf, builtFrame_masterData16 (k := .runEnable) (by decide)]

theorem exec_wru8 (t : BitVec 8) (x : BitVec 16) (v : BitVec 8) (s : State) :
    exec (.wru8 t x v) s =
      .next (s.drive (sendOut (extFrame (targetId .writeOneU8 t) (payloadU8 x v)))) := by
  rw [exec_eq_drive, recordOf, builtFrame_masterData16 (k := .writeOneU8) (by decide)]

/-! ### The probe that looks like a reply -/

/-- Any frame `00 xx aa FE` is classified as a reply that announces `aa` (42_rx_classify.md R55). -/
theorem classifiedOut_replyId (x a : BitVec 8) :
    (classifiedOut 1 Config.frameLen (replyId x a)).rxIsReply = 1 ∧
      (classifiedOut 1 Config.frameLen (replyId x a)).rxAddr = a := by
  have hid : replyId x a = (txRecord 0x00#5 (x ++ a) 0xFE#8 Payload.zero).txId := by
    rw [replyId_eq, txRecord_txId_bytes]
  have hmode : (replyId x a).extractLsb 28 24 = 0x00#5 := by rw [hid, txRecord_mode]
  have hmarker : (replyId x a).extractLsb 7 0 = 0xFE#8 := by rw [hid, txRecord_id8]
  rw [classifiedOut_eq_classifyRecord, classifyRecord, if_pos ⟨rfl, rfl, hmode, hmarker⟩]
  refine ⟨rfl, ?_⟩
  change (replyId x a).extractLsb 15 8 = a
  rw [replyId_eq, extractLsb_data16_lo]

/-- A probe to the marker is a reply of the unassigned address 0x00 (41_frame_build.md R50). -/
theorem targetId_getIdProbe_respMarker :
    targetId .getIdProbe Config.respMarker = replyId Config.masterId 0x00 := by decide

/-! ### The obligations -/

/-- Settles O12: the record is that of `exec_getid`; the probe to 0xFE has the identifier of a reply, and every
such identifier qualifies. -/
theorem getidBuildsTheProbe : Obligations.GetidBuildsTheProbe := by
  refine ⟨fun p hvalid hop => decodePorts_getid hvalid hop, exec_getid,
    fun s => ⟨_, _, exec_getid 0xFE s, ?idFE, exec_eq_drive _ _, ?reply⟩,
    fun s => ⟨_, exec_getid 0xFF s, ?idFF⟩⟩
  case idFE => rw [drive_out]; decide
  case idFF => rw [drive_out]; decide
  case reply =>
    change (classifiedOut 1 Config.frameLen (targetId .getIdProbe Config.respMarker)).rxIsReply = 1 ∧
      (classifiedOut 1 Config.frameLen (targetId .getIdProbe Config.respMarker)).rxAddr = 0x00
    rw [targetId_getIdProbe_respMarker]
    exact classifiedOut_replyId Config.masterId 0x00

/-- Settles O13: the record is that of `exec_setid`, whose identifier has its four fields by `setIdId_fields`. -/
theorem setidBuildsTheReassignment : Obligations.SetidBuildsTheReassignment :=
  ⟨fun _ hvalid hop => decodePorts_setid hvalid hop, exec_setid,
    fun c n s => ⟨_, exec_setid c n s, setIdId_fields n c⟩⟩

/-- Settles O14: the record is that of `exec_runen`. -/
theorem runenBuildsTheEnable : Obligations.RunenBuildsTheEnable :=
  ⟨fun _ hvalid hop => decodePorts_runen hvalid hop, exec_runen⟩

/-- Settles O16: the record is that of `exec_wru8`; both WRITE_ONE commands pack the same mode, `data16` and
target, and neither the index nor the value enters the identifier. -/
theorem wru8BuildsTheByteWrite : Obligations.Wru8BuildsTheByteWrite :=
  ⟨fun _ hvalid hop => decodePorts_wru8 hvalid hop, exec_wru8,
    fun a x y v f s => ⟨_, _, exec_eq_drive (.wru8 a x v) s, exec_eq_drive (.wrf32 a y f) s, rfl⟩⟩

end Sys2Proof.Machine

/-! PROOFS. The family 42_rx_classify.md: CLASSIFY (R55), what decodes to it and its record. -/

namespace Sys2Proof.Machine

theorem decodePorts_classify {p : Ports} (hvalid : p.cmdValid = 1) (hop : p.cmdOp = 0x7) :
    decodePorts p = .ok (.classify p.rxExt p.rxLen p.rxId) := by
  simp [decodePorts, hvalid, hop]

theorem exec_classify (e : BitVec 1) (l : BitVec 4) (id : BitVec 29) (s : State) :
    exec (.classify e l id) s = .next (s.drive (classifyRecord e l id)) := by
  rw [exec_eq_drive, recordOf, classifiedOut_eq_classifyRecord]

/-- The four conditions decide the last two fields alone; the decoded ones are the same either way
(42_rx_classify.md R55). -/
theorem classifyRecord_eq_rxRecord_ite (e : BitVec 1) (l : BitVec 4) (id : BitVec 29) :
    classifyRecord e l id =
      rxRecord id
        (if e = 1 ∧ l = 8 ∧ id.extractLsb 28 24 = 0x00#5 ∧ id.extractLsb 7 0 = 0xFE#8 then 1 else 0)
        (if e = 1 ∧ l = 8 ∧ id.extractLsb 28 24 = 0x00#5 ∧ id.extractLsb 7 0 = 0xFE#8 then
          id.extractLsb 15 8
        else 0xFF) := by
  unfold classifyRecord
  split
  · rfl
  · rfl

/-- Settles O19: the record is that of `exec_classify`, one record of the decoded fields with the two
classification fields chosen by the four conditions. -/
theorem classifyQualifiesByTheFourConditions : Obligations.ClassifyQualifiesByTheFourConditions := by
  refine ⟨fun p hvalid hop => decodePorts_classify hvalid hop, fun e l id s => ?record⟩
  case record =>
    rw [exec_classify, classifyRecord_eq_rxRecord_ite]
    rfl

end Sys2Proof.Machine

/-! PROOFS. The family 60_exceptions.md: no port value stops the codec (R57), and `cmd_err` is raised by a reserved op
alone (R58). -/

namespace Sys2Proof.Machine

/-! ### Reserved ops -/

theorem decodePorts_rsvd {p : Ports} (hvalid : p.cmdValid = 1) (hop : 8 ≤ p.cmdOp.toNat) :
    decodePorts p = .ok (.rsvd p.cmdOp) := by
  obtain ⟨n, hn⟩ := Nat.exists_eq_add_of_le' hop
  simp [decodePorts, hvalid, hn]

theorem exec_rsvd (op : BitVec 4) (s : State) : exec (.rsvd op) s = .next (s.drive errorOut) :=
  exec_eq_drive (.rsvd op) s

theorem codec_of_reserved {p : Ports} (hvalid : p.cmdValid = 1) (hop : 8 ≤ p.cmdOp.toNat) :
    codec p = errorOut :=
  (recordOf_eq_codec (decodePorts_rsvd hvalid hop)).symm

/-! ### Which ports raise `cmd_err` -/

theorem classifyRecord_cmdErr (e : BitVec 1) (l : BitVec 4) (id : BitVec 29) :
    (classifyRecord e l id).cmdErr = 0 := by
  unfold classifyRecord
  split <;> rfl

/-- Neither an idle transaction nor a defined op raises `cmd_err` (60_exceptions.md R58). -/
theorem codec_cmdErr_of_not_reserved {p : Ports} (h : p.cmdValid = 0 ∨ p.cmdOp.toNat < 8) :
    (codec p).cmdErr = 0 := by
  by_cases hv : p.cmdValid = 0
  · have hidle : codec p = outIdle := if_pos hv
    rw [hidle]
    rfl
  have hop := h.resolve_left hv
  unfold codec
  rw [if_neg hv]
  generalize p.cmdOp.toNat = op at hop ⊢
  match op with
  | 0 | 1 | 2 | 3 | 4 | 5 | 6 => rfl
  | 7 => exact classifyRecord_cmdErr ..
  | _ + 8 => omega

theorem codec_cmdErr_iff (p : Ports) :
    (codec p).cmdErr = 1 ↔ p.cmdValid = 1 ∧ 8 ≤ p.cmdOp.toNat := by
  constructor
  · intro herr
    by_contra hnot
    have hdefined : p.cmdValid = 0 ∨ p.cmdOp.toNat < 8 :=
      (BitVec.eq_zero_or_eq_one p.cmdValid).imp_right fun hvalid =>
        Nat.lt_of_not_le fun hop => hnot ⟨hvalid, hop⟩
    simp [codec_cmdErr_of_not_reserved hdefined] at herr
  · rintro ⟨hvalid, hop⟩
    rw [codec_of_reserved hvalid hop, errorOut_cmdErr]

/-! ### The obligations -/

/-- Settles O23: a step on ports always goes on and drives `codec`, whose `cmd_err` is that of `codec_cmdErr_iff`;
the type of faults has no constructor. -/
theorem noPortValueStopsTheCodec : Obligations.NoPortValueStopsTheCodec :=
  ⟨fun _ p _ hq => ⟨_, step_ports_eq_codec hq, codec_cmdErr_iff p⟩, fun fault => nomatch fault⟩

/-- Settles O22: the record is that of `exec_rsvd`; it is not sticky, since a step drives `codec` of the ports
whatever record stood on `out` before. -/
theorem reservedOpRaisesCmdErrAlone : Obligations.ReservedOpRaisesCmdErrAlone :=
  ⟨fun _ hvalid hop => decodePorts_rsvd hvalid hop, exec_rsvd,
    fun _ _ _ hq hdefined => ⟨_, step_ports_eq_codec hq, codec_cmdErr_of_not_reserved hdefined⟩⟩

end Sys2Proof.Machine

/-! PROOFS. The facts the last family shares: identifiers as concatenations of their fields, the rows' patterns on those
fields (30_encoding.md R38, R43), and the payload layouts read back (30_encoding.md R41). -/

namespace Sys2Proof

/-! ### Bytes of a word -/

theorem byteAt_append_right {w : Nat} (hi : BitVec w) (lo : Byte) : byteAt (hi ++ lo) 0 = lo :=
  BitVec.extractLsb'_append_eq_right

/-- Byte `k + 1` of a word is byte `k` of what stands above its lowest byte. -/
theorem byteAt_append_succ {w : Nat} (hi : BitVec w) (lo : Byte) (k : Nat) :
    byteAt (hi ++ lo) (k + 1) = byteAt hi k :=
  BitVec.extractLsb'_append_eq_of_le (by omega)

theorem byteAt_zero_self (b : Byte) : byteAt b 0 = b := BitVec.extractLsb'_eq_self

theorem byteAt_append_byteAt (x : BitVec 16) : byteAt x 1 ++ byteAt x 0 = x :=
  BitVec.extractLsb'_append_extractLsb' (w := 8) (len := 8)

theorem byteAt_append_byteAt_four (f : BitVec 32) :
    byteAt f 3 ++ byteAt f 2 ++ byteAt f 1 ++ byteAt f 0 = f := by
  have htop : byteAt f 3 ++ byteAt f 2 = f.extractLsb' 16 16 :=
    BitVec.extractLsb'_append_extractLsb'_eq_extractLsb' rfl
  have hmid : f.extractLsb' 16 16 ++ byteAt f 1 = f.extractLsb' 8 24 :=
    BitVec.extractLsb'_append_extractLsb'_eq_extractLsb' rfl
  rw [htop, hmid]
  exact BitVec.extractLsb'_append_extractLsb' (w := 24) (len := 8)

/-! ### The payload layouts read back -/

@[simp] theorem payloadF32_index (x : BitVec 16) (f : BitVec 32) : (payloadF32 x f).index = x :=
  byteAt_append_byteAt x

@[simp] theorem payloadF32_f32 (x : BitVec 16) (f : BitVec 32) : (payloadF32 x f).f32 = f :=
  byteAt_append_byteAt_four f

/-- The float layout is the payload its row admits with that index and pattern (30_encoding.md R41). -/
theorem payloadF32_eq_iff {x : BitVec 16} {f : BitVec 32} {d : Payload} :
    payloadF32 x f = d ↔
      FrameKind.writeOneF32.admitsPayload d = true ∧ d.index = x ∧ d.f32 = f := by
  constructor
  · rintro rfl
    exact ⟨rfl, payloadF32_index x f, payloadF32_f32 x f⟩
  · rintro ⟨hzeros, rfl, rfl⟩
    obtain ⟨b0, b1, b2, b3, b4, b5, b6, b7⟩ := d
    obtain ⟨rfl, rfl⟩ : b2 = 0 ∧ b3 = 0 := by simpa [FrameKind.admitsPayload] using hzeros
    simp only [payloadF32, Payload.index, Payload.f32, byteAt_append_right, byteAt_append_succ,
      byteAt_zero_self]

/-- The byte layout is the float layout of the zero-extended value, which is why no frame tells the two kinds apart
(30_encoding.md R42). -/
theorem payloadU8_eq_payloadF32 (x : BitVec 16) (v : BitVec 8) :
    payloadU8 x v = payloadF32 x (v.setWidth 32) := by
  have hv : v.setWidth 32 = 0#8 ++ 0#8 ++ 0#8 ++ v := by
    rw [BitVec.setWidth_eq_append (by decide)]
    rfl
  rw [hv]
  simp only [payloadU8, payloadF32, byteAt_append_right, byteAt_append_succ, byteAt_zero_self]
  rfl

/-- The byte layout is the payload its row admits with that index and value (30_encoding.md R41). -/
theorem payloadU8_eq_iff {x : BitVec 16} {v : BitVec 8} {d : Payload} :
    payloadU8 x v = d ↔ FrameKind.writeOneU8.admitsPayload d = true ∧ d.index = x ∧ d.b4 = v := by
  constructor
  · rintro rfl
    exact ⟨rfl, byteAt_append_byteAt x, rfl⟩
  · rintro ⟨hzeros, rfl, rfl⟩
    obtain ⟨b0, b1, b2, b3, b4, b5, b6, b7⟩ := d
    obtain ⟨⟨⟨⟨rfl, rfl⟩, rfl⟩, rfl⟩, rfl⟩ : (((b2 = 0 ∧ b3 = 0) ∧ b5 = 0) ∧ b6 = 0) ∧ b7 = 0 := by
      simpa [FrameKind.admitsPayload] using hzeros
    simp only [payloadU8, Payload.index, byteAt_append_right, byteAt_append_succ, byteAt_zero_self]

end Sys2Proof

namespace Sys2Proof.Machine

/-! ### Identifiers as their fields -/

theorem append_targetFields (id : BitVec 29) : id.extractLsb 28 8 ++ id.extractLsb 7 0 = id :=
  BitVec.extractLsb'_append_extractLsb' (w := 21) (len := 8)

theorem append_idFields (id : BitVec 29) :
    id.extractLsb 28 24 ++ id.extractLsb 23 8 ++ id.extractLsb 7 0 = id := by
  have htop : id.extractLsb 28 24 ++ id.extractLsb 23 8 = id.extractLsb 28 8 :=
    BitVec.extractLsb'_append_extractLsb'_eq_extractLsb' rfl
  rw [htop]
  exact append_targetFields id

theorem append_data16Bytes (id : BitVec 29) :
    id.extractLsb 23 16 ++ id.extractLsb 15 8 = id.extractLsb 23 8 :=
  BitVec.extractLsb'_append_extractLsb'_eq_extractLsb' rfl

theorem append_byteFields (id : BitVec 29) :
    id.extractLsb 28 24 ++ id.extractLsb 23 16 ++ id.extractLsb 15 8 ++ id.extractLsb 7 0 = id := by
  have hfields := append_idFields id
  rw [← append_data16Bytes, append_data16_bytes] at hfields
  exact hfields

theorem append_eq_append_iff {w v : Nat} {a c : BitVec w} {b d : BitVec v} :
    a ++ b = c ++ d ↔ a = c ∧ b = d := by
  constructor
  · intro h
    have hlow : b = d := BitVec.setWidth_append_eq_right.symm.trans
      ((congrArg (BitVec.setWidth v) h).trans BitVec.setWidth_append_eq_right)
    subst hlow
    exact ⟨(BitVec.append_left_inj b).mp h, rfl⟩
  · rintro ⟨rfl, rfl⟩
    rfl

theorem targetFields_eq_iff {hi : BitVec 21} {t : BitVec 8} {id : BitVec 29} :
    hi ++ t = id ↔ id.extractLsb 28 8 = hi ∧ id.extractLsb 7 0 = t := by
  conv_lhs => rw [← append_targetFields id]
  exact append_eq_append_iff.trans (and_congr eq_comm eq_comm)

theorem byteFields_eq_iff {m : BitVec 5} {hi lo b : BitVec 8} {id : BitVec 29} :
    m ++ hi ++ lo ++ b = id ↔ id.extractLsb 28 24 = m ∧ id.extractLsb 23 16 = hi ∧
      id.extractLsb 15 8 = lo ∧ id.extractLsb 7 0 = b := by
  conv_lhs => rw [← append_byteFields id]
  rw [append_eq_append_iff, append_eq_append_iff, append_eq_append_iff, and_assoc, and_assoc]
  exact and_congr eq_comm (and_congr eq_comm (and_congr eq_comm eq_comm))

/-! ### The rows' patterns on the fields (30_encoding.md R43) -/

/-- A mask keeps or clears each field of an identifier by itself. -/
theorem and_targetFields (id : BitVec 29) (hi : BitVec 21) (t : BitVec 8) :
    id &&& (hi ++ t) = (id.extractLsb 28 8 &&& hi) ++ (id.extractLsb 7 0 &&& t) := by
  conv_lhs => rw [← append_targetFields id]
  exact BitVec.and_append

/-- `and_targetFields` for the four fields of an identifier. -/
theorem and_byteFields (id : BitVec 29) (m : BitVec 5) (hi lo b : BitVec 8) :
    id &&& (m ++ hi ++ lo ++ b) = (id.extractLsb 28 24 &&& m) ++ (id.extractLsb 23 16 &&& hi) ++
      (id.extractLsb 15 8 &&& lo) ++ (id.extractLsb 7 0 &&& b) := by
  conv_lhs => rw [← append_byteFields id]
  rw [← BitVec.and_append, ← BitVec.and_append, ← BitVec.and_append]

/-- A row whose mask leaves the low byte free has a match with that byte at 0. -/
theorem matchBits_of_targetMask {k : FrameKind} (hk : k.maskBits = 0x1FFFFF00) :
    k.matchBits = k.matchBits.extractLsb 28 8 ++ 0#8 := by
  revert hk
  cases k <;> decide

/-- The rows of one operand fix the 21 bits above the target. -/
theorem admits_iff_of_targetMask {k : FrameKind} (hk : k.maskBits = 0x1FFFFF00) {id : BitVec 29} :
    k.admits id = true ↔ id.extractLsb 28 8 = k.matchBits.extractLsb 28 8 := by
  have hmask : id &&& k.maskBits = id.extractLsb 28 8 ++ 0#8 := by
    have hkeep := and_targetFields id (BitVec.allOnes 21) 0#8
    rw [BitVec.and_allOnes, BitVec.and_zero] at hkeep
    rw [hk]
    exact hkeep
  rw [FrameKind.admits, beq_iff_eq, hmask]
  conv_lhs => rw [matchBits_of_targetMask hk]
  exact BitVec.append_left_inj _

theorem admits_setId_iff {id : BitVec 29} :
    FrameKind.setId.admits id = true ↔
      id.extractLsb 28 24 = 0x07#5 ∧ id.extractLsb 15 8 = 0xFD#8 := by
  have hmask := and_byteFields id (BitVec.allOnes 5) 0#8 (BitVec.allOnes 8) 0#8
  rw [BitVec.and_allOnes, BitVec.and_zero, BitVec.and_allOnes, BitVec.and_zero] at hmask
  rw [FrameKind.admits, beq_iff_eq]
  calc id &&& FrameKind.setId.maskBits = FrameKind.setId.matchBits
      ↔ id.extractLsb 28 24 ++ 0#8 ++ id.extractLsb 15 8 ++ 0#8 = 0x07#5 ++ 0#8 ++ 0xFD#8 ++ 0#8 :=
        Eq.congr_left hmask
    _ ↔ id.extractLsb 28 24 = 0x07#5 ∧ id.extractLsb 15 8 = 0xFD#8 := by
        simp only [append_eq_append_iff, and_true]

theorem admits_getIdReply_iff {id : BitVec 29} :
    FrameKind.getIdReply.admits id = true ↔
      id.extractLsb 28 24 = 0x00#5 ∧ id.extractLsb 7 0 = 0xFE#8 := by
  have hmask := and_byteFields id (BitVec.allOnes 5) 0#8 0#8 (BitVec.allOnes 8)
  rw [BitVec.and_allOnes, BitVec.and_zero, BitVec.and_zero, BitVec.and_allOnes] at hmask
  rw [FrameKind.admits, beq_iff_eq]
  calc id &&& FrameKind.getIdReply.maskBits = FrameKind.getIdReply.matchBits
      ↔ id.extractLsb 28 24 ++ 0#8 ++ 0#8 ++ id.extractLsb 7 0 = 0x00#5 ++ 0#8 ++ 0#8 ++ 0xFE#8 :=
        Eq.congr_left hmask
    _ ↔ id.extractLsb 28 24 = 0x00#5 ∧ id.extractLsb 7 0 = 0xFE#8 := by
        simp only [append_eq_append_iff, and_true]

/-! ### A row's identifiers are the ones it admits, with the operands on its free bits -/

theorem targetId_eq_iff {k : FrameKind} (hk : k.maskBits = 0x1FFFFF00) {t : BitVec 8}
    {id : BitVec 29} : targetId k t = id ↔ k.admits id = true ∧ byteAt id 0 = t := by
  have hlow : k.matchBits.extractLsb' 0 8 = 0 := by
    revert hk
    cases k <;> decide
  rw [targetId_eq k hlow, admits_iff_of_targetMask hk]
  exact targetFields_eq_iff

theorem setIdId_eq_iff {n c : BitVec 8} {id : BitVec 29} :
    setIdId n c = id ↔
      FrameKind.setId.admits id = true ∧ byteAt id 2 = n ∧ byteAt id 0 = c := by
  rw [setIdId_eq, admits_setId_iff]
  refine byteFields_eq_iff.trans ?_
  exact ⟨fun ⟨hm, hn, hmaster, hc⟩ => ⟨⟨hm, hmaster⟩, hn, hc⟩,
    fun ⟨⟨hm, hmaster⟩, hn, hc⟩ => ⟨hm, hn, hmaster, hc⟩⟩

theorem replyId_eq_iff {x a : BitVec 8} {id : BitVec 29} :
    replyId x a = id ↔
      FrameKind.getIdReply.admits id = true ∧ byteAt id 2 = x ∧ byteAt id 1 = a := by
  rw [replyId_eq, admits_getIdReply_iff]
  refine byteFields_eq_iff.trans ?_
  exact ⟨fun ⟨hm, hx, ha, hmarker⟩ => ⟨⟨hm, hmarker⟩, hx, ha⟩,
    fun ⟨⟨hm, hmarker⟩, hx, ha⟩ => ⟨hm, hx, ha, hmarker⟩⟩


end Sys2Proof.Machine

/-! PROOFS. The decoder against the encoder: 30_encoding.md, the input ports of 10_state.md R13. -/

namespace Sys2Proof.Machine

/-! ### Decode of encode -/

theorem decodePorts_wrf32 {p : Ports} (hvalid : p.cmdValid = 1) (hop : p.cmdOp = 0x5) :
    decodePorts p = .ok (.wrf32 p.addrIn p.indexIn p.valF32) := by
  simp [decodePorts, hvalid, hop]

/-- An extended frame of length 8 decodes by its row when its identifier and its payload fit it. -/
theorem decodeFrame_extFrame {k : FrameKind} {id : BitVec 29} {d : Payload}
    (hid : k.admits id = true) (hd : k.admitsPayload d = true) :
    decodeFrame k (extFrame id d) = .ok (k.read id d) :=
  (decodeFrame_ok_iff k _ _).mpr ⟨rfl, rfl, hid, hd, rfl⟩

theorem decodeFrame_target {k : FrameKind} (hk : k.maskBits = 0x1FFFFF00) (t : BitVec 8)
    {d : Payload} (hd : k.admitsPayload d = true) :
    decodeFrame k (extFrame (targetId k t) d) = .ok (k.read (targetId k t) d) ∧
      byteAt (targetId k t) 0 = t := by
  obtain ⟨hadmits, hread⟩ := (targetId_eq_iff hk).mp (rfl : targetId k t = _)
  exact ⟨decodeFrame_extFrame hadmits hd, hread⟩

theorem decode_encode_frameGetIdProbe (t : BitVec 8) :
    decode (encode (.frameGetIdProbe t)) = .ok (.frameGetIdProbe t) := by
  obtain ⟨hdecode, htarget⟩ := decodeFrame_target (k := .getIdProbe) rfl t (d := Payload.zero) rfl
  rw [FrameKind.read, htarget] at hdecode
  exact hdecode

theorem decode_encode_frameRunEnable (t : BitVec 8) :
    decode (encode (.frameRunEnable t)) = .ok (.frameRunEnable t) := by
  obtain ⟨hdecode, htarget⟩ := decodeFrame_target (k := .runEnable) rfl t (d := Payload.zero) rfl
  rw [FrameKind.read, htarget] at hdecode
  exact hdecode

theorem decode_encode_frameWriteOneF32 (t : BitVec 8) (x : BitVec 16) (f : BitVec 32) :
    decode (encode (.frameWriteOneF32 t x f)) = .ok (.frameWriteOneF32 t x f) := by
  obtain ⟨hdecode, htarget⟩ := decodeFrame_target (k := .writeOneF32) rfl t (d := payloadF32 x f) rfl
  rw [FrameKind.read, htarget, payloadF32_index, payloadF32_f32] at hdecode
  exact hdecode

theorem decode_encode_frameWriteOneU8 (t : BitVec 8) (x : BitVec 16) (v : BitVec 8) :
    decode (encode (.frameWriteOneU8 t x v)) = .ok (.frameWriteOneU8 t x v) := by
  obtain ⟨hdecode, htarget⟩ := decodeFrame_target (k := .writeOneU8) rfl t (d := payloadU8 x v) rfl
  obtain ⟨_, hindex, hvalue⟩ := payloadU8_eq_iff.mp (rfl : payloadU8 x v = _)
  rw [FrameKind.read, htarget, hindex, hvalue] at hdecode
  exact hdecode

theorem decode_encode_frameSetId (n c : BitVec 8) :
    decode (encode (.frameSetId n c)) = .ok (.frameSetId n c) := by
  obtain ⟨hadmits, hnew, hcurrent⟩ := setIdId_eq_iff.mp (rfl : setIdId n c = _)
  have hdecode := decodeFrame_extFrame hadmits (d := Payload.zero) rfl
  rw [FrameKind.read, hnew, hcurrent] at hdecode
  exact hdecode

theorem decode_encode_frameGetIdReply (x a : BitVec 8) :
    decode (encode (.frameGetIdReply x a)) = .ok (.frameGetIdReply x a) := by
  obtain ⟨hadmits, hx, ha⟩ := replyId_eq_iff.mp (rfl : replyId x a = _)
  have hdecode := decodeFrame_extFrame hadmits (d := Payload.zero) rfl
  rw [FrameKind.read, hx, ha] at hdecode
  exact hdecode

/-- Settles O43, row by row: a command's encoding presents its op and its operands on the ports that op reads; a frame
kind's encoding is admitted by its own row, and the row reads back the operands it was built from. -/
theorem decodeOfEncodeIsTheInstruction : Obligations.DecodeOfEncodeIsTheInstruction := by
  intro i hwf
  cases i with
  | encid m d b => exact decodePorts_encid rfl rfl
  | decid id => exact decodePorts_decid rfl rfl
  | getid t => exact decodePorts_getid rfl rfl
  | setid c n => exact decodePorts_setid rfl rfl
  | runen t => exact decodePorts_runen rfl rfl
  | wrf32 t x f => exact decodePorts_wrf32 rfl rfl
  | wru8 t x v => exact decodePorts_wru8 rfl rfl
  | classify e l id => exact decodePorts_classify rfl rfl
  | rsvd op => exact decodePorts_rsvd rfl (of_decide_eq_true hwf)
  | frameGetIdProbe t => exact decode_encode_frameGetIdProbe t
  | frameSetId n c => exact decode_encode_frameSetId n c
  | frameRunEnable t => exact decode_encode_frameRunEnable t
  | frameWriteOneF32 t x f => exact decode_encode_frameWriteOneF32 t x f
  | frameWriteOneU8 t x v => exact decode_encode_frameWriteOneU8 t x v
  | frameGetIdReply x a => exact decode_encode_frameGetIdReply x a

/-! ### Encode of decode -/

/-- What a row reads from an identifier and a payload it admits is encoded as that frame, but for the payload of a
reply (30_encoding.md R41, R43). -/
theorem encode_read {k : FrameKind} {id : BitVec 29} {d : Payload} (hid : k.admits id = true)
    (hd : k.admitsPayload d = true) :
    encode (k.read id d) =
      .frame k (extFrame id (if k = .getIdReply then Payload.zero else d)) := by
  have htarget (hk : k.maskBits = 0x1FFFFF00) : targetId k (byteAt id 0) = id :=
    (targetId_eq_iff hk).mpr ⟨hid, rfl⟩
  cases k with
  | getIdProbe =>
    obtain rfl : d = Payload.zero := eq_of_beq hd
    rw [FrameKind.read, encode, htarget rfl, if_neg (by decide)]
  | setId =>
    obtain rfl : d = Payload.zero := eq_of_beq hd
    rw [FrameKind.read, encode, setIdId_eq_iff.mpr ⟨hid, rfl, rfl⟩, if_neg (by decide)]
  | runEnable =>
    obtain rfl : d = Payload.zero := eq_of_beq hd
    rw [FrameKind.read, encode, htarget rfl, if_neg (by decide)]
  | writeOneF32 =>
    rw [FrameKind.read, encode, htarget rfl, payloadF32_eq_iff.mpr ⟨hd, rfl, rfl⟩,
      if_neg (by decide)]
  | writeOneU8 =>
    rw [FrameKind.read, encode, htarget rfl, payloadU8_eq_iff.mpr ⟨hd, rfl, rfl⟩,
      if_neg (by decide)]
  | getIdReply => rw [FrameKind.read, encode, replyId_eq_iff.mpr ⟨hid, rfl, rfl⟩, if_pos rfl]

/-- A frame that decodes is its instruction's encoding, but for the payload of a reply. -/
theorem encode_of_decodeFrame {k : FrameKind} {f : Frame} {i : Instr} (h : decodeFrame k f = .ok i) :
    encode i = .frame k { f with data := if k = .getIdReply then Payload.zero else f.data } := by
  obtain ⟨hext, hlen, hid, hdata, rfl⟩ := (decodeFrame_ok_iff k f i).mp h
  rw [encode_read hid hdata, extFrame, ← hext, ← hlen]

theorem wellFormed_read (k : FrameKind) (id : BitVec 29) (d : Payload) : WellFormed (k.read id d) := by
  cases k <;> rfl

/-- Ports that decode agree with their instruction's encoding on every port the op uses, and the instruction is
well formed (10_state.md R13). -/
theorem agreeOnUsed_of_decodePorts {p : Ports} {i : Instr} (h : decodePorts p = .ok i) :
    WellFormed i ∧ ∃ r, encode i = .ports r ∧ p.AgreeOnUsed r := by
  by_cases hv : p.cmdValid = 0
  · rw [decodePorts_idle hv] at h
    cases h
  have hvalid : p.cmdValid = 1 := (BitVec.eq_zero_or_eq_one _).resolve_left hv
  unfold decodePorts at h
  unfold Ports.AgreeOnUsed
  rw [if_neg hv] at h
  have hop {n : Nat} (hn : p.cmdOp.toNat = n) : p.cmdOp = BitVec.ofNat 4 n := by
    rw [← hn, BitVec.ofNat_toNat, BitVec.setWidth_eq]
  generalize hn : p.cmdOp.toNat = op at h ⊢
  match op with
  | 0 => cases h; exact ⟨rfl, _, rfl, hvalid, hop hn, rfl, rfl, rfl⟩
  | 1 => cases h; exact ⟨rfl, _, rfl, hvalid, hop hn, rfl⟩
  | 2 => cases h; exact ⟨rfl, _, rfl, hvalid, hop hn, rfl⟩
  | 3 => cases h; exact ⟨rfl, _, rfl, hvalid, hop hn, rfl, rfl⟩
  | 4 => cases h; exact ⟨rfl, _, rfl, hvalid, hop hn, rfl⟩
  | 5 => cases h; exact ⟨rfl, _, rfl, hvalid, hop hn, rfl, rfl, rfl⟩
  | 6 => cases h; exact ⟨rfl, _, rfl, hvalid, hop hn, rfl, rfl, rfl⟩
  | 7 => cases h; exact ⟨rfl, _, rfl, hvalid, hop hn, rfl, rfl, rfl⟩
  | n + 8 => cases h; exact ⟨decide_eq_true (by omega), _, rfl, hvalid, rfl, trivial⟩

theorem wellFormed_of_decode {t : Transaction} {i : Instr} (h : decode t = .ok i) : WellFormed i := by
  match t with
  | .ports p => exact (agreeOnUsed_of_decodePorts h).1
  | .frame k f =>
    obtain ⟨_, _, _, _, rfl⟩ := (decodeFrame_ok_iff k f i).mp h
    exact wellFormed_read k f.id f.data

/-- Settles O44: a frame is rebuilt from what its row read (`encode_of_decodeFrame`), port values op by op
(`agreeOnUsed_of_decodePorts`). -/
theorem encodeOfDecodeIsTheTransaction : Obligations.EncodeOfDecodeIsTheTransaction := by
  refine ⟨fun t i h => wellFormed_of_decode h, fun k f i h hk => ?outbound,
    fun f i h => encode_of_decodeFrame h, fun p i h => (agreeOnUsed_of_decodePorts h).2⟩
  case outbound =>
    rw [encode_of_decodeFrame h, if_neg hk]

/-! ### Unused ports -/

/-- The decoder reads no port the op does not use (10_state.md R13). -/
theorem decodePorts_congr {p r : Ports} (h : p.AgreeOnUsed r) : decodePorts p = decodePorts r := by
  obtain ⟨hvalid, hop, hargs⟩ := h
  unfold decodePorts
  rw [← hvalid, ← hop]
  by_cases hv : p.cmdValid = 0
  · rw [if_pos hv, if_pos hv]
  rw [if_neg hv, if_neg hv]
  generalize p.cmdOp.toNat = op at hargs ⊢
  match op with
  | 0 => obtain ⟨hm, hd, hb⟩ := hargs; simp only [hm, hd, hb]
  | 1 => have hid : p.rxId = r.rxId := hargs; simp only [hid]
  | 2 => have ht : p.addrIn = r.addrIn := hargs; simp only [ht]
  | 3 => obtain ⟨hc, hn⟩ := hargs; simp only [hc, hn]
  | 4 => have ht : p.addrIn = r.addrIn := hargs; simp only [ht]
  | 5 => obtain ⟨ht, hx, hf⟩ := hargs; simp only [ht, hx, hf]
  | 6 => obtain ⟨ht, hx, hu⟩ := hargs; simp only [ht, hx, hu]
  | 7 => obtain ⟨he, hl, hid⟩ := hargs; simp only [he, hl, hid]
  | _ + 8 => rfl

/-- Ports that decode to the same have the same record. -/
theorem codec_eq_of_decodePorts_eq {p r : Ports} (h : decodePorts p = decodePorts r) :
    codec p = codec r := by
  by_cases hp : p.cmdValid = 0
  · have hr : r.cmdValid = 0 := by
      by_contra hr
      obtain ⟨i, hi⟩ := decodePorts_ok hr
      rw [decodePorts_idle hp, hi] at h
      cases h
    rw [codec, codec, if_pos hp, if_pos hr]
  · obtain ⟨i, hi⟩ := decodePorts_ok hp
    rw [← recordOf_eq_codec hi, ← recordOf_eq_codec (h ▸ hi)]

/-- Settles O28: the decoder reads the used ports alone, and the record depends on the ports only through what they
decode to. -/
theorem unusedPortsAreIgnored : Obligations.UnusedPortsAreIgnored := by
  intro p r h
  have hdecode := decodePorts_congr h
  exact ⟨hdecode, fun s q => ⟨_, _, step_ports_eq_codec rfl, step_ports_eq_codec rfl,
    codec_eq_of_decodePorts_eq hdecode⟩⟩

end Sys2Proof.Machine

/-! PROOFS. What every step keeps (10_state.md R15, R16), and written-out frames (log 3, log 5). -/

namespace Sys2Proof.Machine

/-! ### A step on a written-out frame -/

/-- The row of one operand admits what its pattern fixes on slices of the identifier. -/
theorem fits_iff_admits_of_targetMask {k : FrameKind} (hk : k.maskBits = 0x1FFFFF00) {id : BitVec 29}
    {hi : BitVec 21} (hhi : k.matchBits.extractLsb 28 8 = hi) :
    id.extractLsb 28 8 = hi ↔ k.admits id = true := by
  rw [admits_iff_of_targetMask hk, hhi]

theorem frameFits_iff (k : FrameKind) (f : Frame) :
    FrameFits k f ↔ f.ext = 1 ∧ f.len = Config.frameLen ∧ k.admits f.id = true ∧
      k.admitsPayload f.data = true := by
  refine and_congr_right fun _ => and_congr_right fun _ => ?_
  cases k with
  | getIdProbe =>
    exact and_congr (fits_iff_admits_of_targetMask rfl rfl) beq_iff_eq.symm
  | setId =>
    rw [admits_setId_iff, and_assoc]
    exact and_congr_right' (and_congr_right' beq_iff_eq.symm)
  | runEnable =>
    exact and_congr (fits_iff_admits_of_targetMask rfl rfl) beq_iff_eq.symm
  | writeOneF32 =>
    refine and_congr (fits_iff_admits_of_targetMask rfl rfl) ?_
    simp only [FrameKind.admitsPayload, Bool.and_eq_true, beq_iff_eq]
  | writeOneU8 =>
    refine and_congr (fits_iff_admits_of_targetMask rfl rfl) ?_
    simp only [FrameKind.admitsPayload, Bool.and_eq_true, beq_iff_eq, and_assoc]
  | getIdReply =>
    rw [admits_getIdReply_iff]
    exact (and_iff_left rfl).symm

/-- A frame fits its row exactly when it decodes by it. -/
theorem frameFits_iff_decodeFrame (k : FrameKind) (f : Frame) :
    FrameFits k f ↔ ∃ i, decodeFrame k f = .ok i := by
  simp only [frameFits_iff, decodeFrame_ok_iff, exists_and_left, exists_eq, and_true]

/-- What a frame encodes drives that frame's record: `tx_*` as the frame stands, or its classification. -/
theorem recordOf_of_encode_frame {i : Instr} {k : FrameKind} {f : Frame} (h : encode i = .frame k f) :
    recordOf i = frameRecord k f := by
  cases i with
  | encid | decid | getid | setid | runen | wrf32 | wru8 | classify | rsvd => cases h
  | frameGetIdProbe | frameSetId | frameRunEnable | frameWriteOneF32 | frameWriteOneU8 =>
    cases h
    rfl
  | frameGetIdReply x a =>
    cases h
    exact classifiedOut_eq_classifyRecord _ _ _

/-- A written-out frame that decodes drives its own record; the payload of a reply, which its encoding drops, is not
part of that record (42_rx_classify.md R56). -/
theorem recordOf_of_decodeFrame {k : FrameKind} {f : Frame} {i : Instr} (h : decodeFrame k f = .ok i) :
    recordOf i = frameRecord k f := by
  rw [recordOf_of_encode_frame (encode_of_decodeFrame h)]
  cases k <;> rfl

theorem step_frame_of_fits {s : State} {k : FrameKind} {f : Frame} {q : List Transaction}
    (hq : s.queue = .frame k f :: q) (hfits : FrameFits k f) :
    step s = .next ⟨.frame k f, q, frameRecord k f⟩ := by
  obtain ⟨i, hd⟩ := (frameFits_iff_decodeFrame k f).mp hfits
  rw [step, presentNext_cons hq, ← recordOf_of_decodeFrame hd]
  exact (respond_ok (s := ⟨.frame k f, q, s.out⟩) hd).trans (exec_eq_drive i _)

theorem step_frame_of_not_fits {s : State} {k : FrameKind} {f : Frame} {q : List Transaction}
    (hq : s.queue = .frame k f :: q) (hfits : ¬FrameFits k f) :
    ∃ why, step s = .refused (.frameRejected why) := by
  rw [frameFits_iff_decodeFrame] at hfits
  rw [step, presentNext_cons hq]
  cases hd : decodeFrame k f with
  | ok i => exact absurd ⟨i, hd⟩ hfits
  | error why =>
    have hwhy : why ≠ .idle := fun h => decodeFrame_ne_idle k f (h ▸ hd)
    exact ⟨why, respond_rejected (s := ⟨.frame k f, q, s.out⟩) hd hwhy⟩

/-- Settles O41: a frame fits its row exactly when it decodes, and what decodes drives the frame's own record. -/
theorem frameStepIsTheFramesRecord : Obligations.FrameStepIsTheFramesRecord :=
  fun _ _ _ _ hq => ⟨step_frame_of_fits hq, step_frame_of_not_fits hq⟩

/-! ### What stands on `out` after a step -/

theorem step_nil {s : State} (hq : s.queue = []) : step s = .next ⟨Transaction.idle, [], outIdle⟩ := by
  rw [step, presentNext_nil hq, hq]
  exact respond_idle (s := ⟨Transaction.idle, [], s.out⟩) (decodePorts_idle rfl)

/-- Whatever stood on `out` before, a step that goes on leaves what its transaction calls for (10_state.md R16). -/
theorem outFollowsInputs_of_step {s t : State} (h : step s = .next t) : OutFollowsInputs t := by
  match hq : s.queue with
  | [] =>
    rw [step_nil hq] at h
    cases h
    rfl
  | .ports p :: q =>
    rw [step_ports_eq_codec hq] at h
    cases h
    rfl
  | .frame k f :: q =>
    by_cases hfits : FrameFits k f
    · rw [step_frame_of_fits hq hfits] at h
      cases h
      exact ⟨hfits, rfl⟩
    · obtain ⟨why, hrefused⟩ := step_frame_of_not_fits hq hfits
      rw [hrefused] at h
      cases h

/-- Settles O36: the codec stores nothing, so a step restores the invariant without its hypothesis on the state before;
its three cases are an empty queue, port values and a written-out frame. -/
theorem stepKeepsOutFollowingInputs : Obligations.StepKeepsOutFollowingInputs :=
  fun _ _ _ h => outFollowsInputs_of_step h

/-! ### Legal records -/

theorem outIdle_legal : outIdle.Legal := by decide

theorem errorOut_legal : errorOut.Legal := by decide

theorem sendOut_extFrame_legal (id : BitVec 29) (d : Payload) : (sendOut (extFrame id d)).Legal :=
  ⟨fun _ => ⟨rfl, rfl, rfl, rfl⟩, fun h => absurd h (by simp), fun _ => rfl,
    fun _ => ⟨rfl, rfl, rfl, rfl⟩, fun h => absurd h (by simp), fun _ => rfl⟩

theorem decodedOut_legal (id : BitVec 29) : (decodedOut id).Legal :=
  ⟨fun h => absurd h (by simp), fun _ => ⟨rfl, rfl, rfl, rfl⟩, fun _ => rfl,
    fun h => absurd h (by simp), fun h => absurd h (by simp), fun _ => rfl⟩

theorem classifiedOut_legal (e : BitVec 1) (l : BitVec 4) (id : BitVec 29) :
    (classifiedOut e l id).Legal := by
  rcases classifiedOut_cases e l id with ⟨hq, hout⟩ | ⟨_, hout⟩
  · obtain ⟨_, _, hmode, hmarker⟩ := (qualifies_iff e l id).mp hq
    rw [hout]
    exact ⟨fun h => absurd h (by simp), fun _ => ⟨rfl, rfl, rfl, rfl⟩, fun _ => rfl,
      fun h => absurd h (by simp), fun _ => ⟨hmode, hmarker, replyAddr_eq _⟩,
      fun h => absurd h (by simp)⟩
  · rw [hout]
    exact decodedOut_legal id

theorem recordOf_legal (i : Instr) : (recordOf i).Legal := by
  cases i with
  | encid | getid | setid | runen | wrf32 | wru8 => exact sendOut_extFrame_legal ..
  | frameGetIdProbe | frameSetId | frameRunEnable | frameWriteOneF32 | frameWriteOneU8 =>
    exact sendOut_extFrame_legal ..
  | decid id => exact decodedOut_legal id
  | classify | frameGetIdReply => exact classifiedOut_legal ..
  | rsvd op => exact errorOut_legal

/-- Settles O37: a step drives O0 or the record of the decoded instruction, and each of these is legal. -/
theorem stepKeepsOutLegal : Obligations.StepKeepsOutLegal := by
  intro s t _ h
  rcases step_cases h with ⟨i, _, hexec⟩ | ⟨_, rfl⟩
  · rw [exec_eq_drive] at hexec
    cases hexec
    exact recordOf_legal i
  · exact outIdle_legal

/-- Settles O2: reset names each field, and O0 is what idle ports call for and is legal. -/
theorem resetLeavesTheIdleRecord : Obligations.ResetLeavesTheIdleRecord :=
  ⟨reset_out, reset_present, reset_queue, (if_pos rfl : codec Ports.zero = outIdle).symm,
    outIdle_legal⟩

end Sys2Proof.Machine

/-! PROOFS. Steps and runs of the whole codec: 10_state.md R16, 20_memory.md R31, 70_reset_and_hazards.md. -/

namespace Sys2Proof.Machine

/-! ### One step -/

/-- Settles O3: the step presents the head of the queue, and what it decodes to is run. -/
theorem stepRunsTheDecodedInstruction : Obligations.StepRunsTheDecodedInstruction := by
  intro s t q i hq hd _
  rw [step, presentNext_cons hq]
  exact respond_ok (s := { s with present := t, queue := q }) hd

/-- Settles O4: `step_nil`, the case of a step without a queued transaction. -/
theorem emptyQueueStepIsIdle : Obligations.EmptyQueueStepIsIdle := fun _ hq => step_nil hq

/-- Settles O5: the record is `recordOf i`. -/
theorem execDrivesARecordNoStateDecides : Obligations.ExecDrivesARecordNoStateDecides :=
  fun i => ⟨recordOf i, exec_eq_drive i⟩

/-- Settles O6: the second run drives the record that already stands on `out`. -/
theorem execIsIdempotent : Obligations.ExecIsIdempotent := by
  intro i s
  refine ⟨_, exec_eq_drive i s, ?_⟩
  rw [exec_eq_drive, drive_drive]

/-- Settles O32: `step_ports_eq_codec`, op by op. -/
theorem portStepIsCodecOfThePorts : Obligations.PortStepIsCodecOfThePorts :=
  fun _ _ _ hq => step_ports_eq_codec hq

/-- Settles O31: the step drives `codec p`, and a read from `T_PD` on is what is driven. -/
theorem settledReadIsTheCommandsRecord : Obligations.SettledReadIsTheCommandsRecord :=
  fun _ _ _ hq => ⟨_, step_ports_eq_codec hq, fun _ reading h => readOut_settled reading h⟩

/-! ### Runs -/

/-- The codec's answer does not depend on the record that stood on `out` (10_state.md R16). -/
theorem respond_drive (s : State) (o : Out) : respond (s.drive o) = respond s := by
  cases hd : decode s.present with
  | ok i =>
    rw [respond_ok hd, respond_ok (s := s.drive o) hd, exec_eq_drive, exec_eq_drive, drive_drive]
  | error why =>
    by_cases hidle : why = .idle
    · subst hidle
      rw [respond_idle hd, respond_idle (s := s.drive o) hd, drive_drive]
    · rw [respond_rejected hd hidle, respond_rejected (s := s.drive o) hd hidle]

theorem presentNext_eq_drive {s u : State} (h : s.queue = u.queue) :
    s.presentNext = u.presentNext.drive s.out := by
  rcases presentNext_cases u with ⟨hu, hnext⟩ | ⟨t, q, hu, hnext⟩
  · rw [presentNext_nil (h.trans hu), hnext, h]
    rfl
  · rw [presentNext_cons (h.trans hu), hnext]
    rfl

/-- A step depends on the queue alone: the ports are presented anew and `out` is driven anew. -/
theorem step_eq_of_queue_eq {s u : State} (h : s.queue = u.queue) : step s = step u := by
  rw [step, step, presentNext_eq_drive h, respond_drive]

/-- Settles O34: already the first steps of the two runs answer the same, so the runs go on from one state. -/
theorem outputsForgetTheHistory : Obligations.OutputsForgetTheHistory := by
  intro n s u h
  cases n with
  | zero => rfl
  | succ n => rw [runOuts, runOuts, step_eq_of_queue_eq h]

/-- Settles O35: a run is the list of `codec` of each command, and mapping keeps permutations. -/
theorem reorderingCommandsOnlyReordersOutputs : Obligations.ReorderingCommandsOnlyReordersOutputs := by
  intro ps rs s u hs hu hperm
  rw [runIsTheListOfCodecOfEachCommand ps s hs, runIsTheListOfCodecOfEachCommand rs u hu]
  exact hperm.map codec

/-! ### Frame kinds against their fields and their commands (log 3) -/

theorem exec_wrf32 (t : BitVec 8) (x : BitVec 16) (f : BitVec 32) (s : State) :
    exec (.wrf32 t x f) s =
      .next (s.drive (sendOut (extFrame (targetId .writeOneF32 t) (payloadF32 x f)))) := by
  rw [exec_eq_drive, recordOf, builtFrame_masterData16 (k := .writeOneF32) (by decide)]

/-- CLASSIFY of an identifier written by the fields of a reply (42_rx_classify.md R55). -/
theorem exec_classify_replyFields (x a : BitVec 8) (s : State) :
    exec (.classify 1 8 (0x00#5 ++ x ++ a ++ 0xFE#8)) s =
      .next (s.drive (classifiedOut 1 Config.frameLen (replyId x a))) := by
  rw [exec_eq_drive, replyId_eq]
  rfl

/-- Settles O40: both sides drive the same frame, whose identifier the command packs from fields and the frame kind
writes by its pattern. -/
theorem frameKindsAgreeWithTheirCommands : Obligations.FrameKindsAgreeWithTheirCommands :=
  fun s => ⟨fun a => (exec_getid a s).symm, fun n c => (exec_setid c n s).symm,
    fun a => (exec_runen a s).symm, fun a x f => (exec_wrf32 a x f s).symm,
    fun a x v => (exec_wru8 a x v s).symm, fun x a => (exec_classify_replyFields x a s).symm⟩

theorem exec_of_recordOf {i : Instr} {o : Out} (h : recordOf i = o) (s : State) :
    exec i s = .next { s with out := o } :=
  h ▸ exec_eq_drive i s

/-- The record of an outbound frame of one operand by its fields (30_encoding.md R43). -/
theorem sendOut_target {k : FrameKind} {hi : BitVec 21} (hk : k.maskBits = 0x1FFFFF00)
    (hhi : k.matchBits.extractLsb 28 8 = hi) (t : BitVec 8) (d : Payload) :
    sendOut (extFrame (targetId k t) d) =
      { outIdle with txValid := 1, txExt := 1, txLen := 8, txId := hi ++ t, txData := d } := by
  have hid : hi ++ t = targetId k t := by
    obtain ⟨hadmits, htarget⟩ := (targetId_eq_iff hk).mp (rfl : targetId k t = _)
    exact targetFields_eq_iff.mpr ⟨((admits_iff_of_targetMask hk).mp hadmits).trans hhi, htarget⟩
  rw [hid]
  rfl

theorem sendOut_setIdId (n c : BitVec 8) (d : Payload) :
    sendOut (extFrame (setIdId n c) d) =
      { outIdle with
        txValid := 1, txExt := 1, txLen := 8, txId := 0x07#5 ++ n ++ 0xFD#8 ++ c, txData := d } := by
  rw [setIdId_eq]
  rfl

/-- Settles O38: the identifiers are the fields of their rows one after the other. -/
theorem outboundFrameKindsStandOnTx : Obligations.OutboundFrameKindsStandOnTx :=
  ⟨fun a => exec_of_recordOf (sendOut_target rfl rfl a _),
    fun n c => exec_of_recordOf (sendOut_setIdId n c _),
    fun a => exec_of_recordOf (sendOut_target rfl rfl a _),
    fun a x f => exec_of_recordOf (sendOut_target rfl rfl a (payloadF32 x f)),
    fun a x v => exec_of_recordOf (sendOut_target rfl rfl a (payloadU8 x v))⟩

/-- A reply's identifier by its fields (42_rx_classify.md R55). -/
theorem replyId_fields (x a : BitVec 8) :
    (replyId x a).extractLsb 28 24 = 0x00#5 ∧ (replyId x a).extractLsb 23 16 = x ∧
      (replyId x a).extractLsb 15 8 = a ∧ (replyId x a).extractLsb 7 0 = 0xFE#8 :=
  byteFields_eq_iff.mp (replyId_eq x a).symm

/-- The record of a reply by the two bytes its row leaves free (42_rx_classify.md R55). -/
theorem classifiedOut_replyId_eq (x a : BitVec 8) :
    classifiedOut 1 Config.frameLen (replyId x a) = { outIdle with
      decValid := 1, decMode := 0x00, decData16 := x ++ a, decId8 := 0xFE, rxIsReply := 1
      rxAddr := a } := by
  obtain ⟨hmode, hx, ha, hmarker⟩ := replyId_fields x a
  have hdata : (replyId x a).extractLsb 23 8 = x ++ a := by
    rw [← append_data16Bytes, hx, ha]
  rw [classifiedOut_eq_classifyRecord, classifyRecord, if_pos ⟨rfl, rfl, hmode, hmarker⟩, rxRecord,
    hmode, hdata, hmarker, ha]
  rfl

/-- Settles O39: the classification of `00 xx aa FE` by its four fields. -/
theorem replyFrameKindIsClassified : Obligations.ReplyFrameKindIsClassified :=
  fun x a => exec_of_recordOf (classifiedOut_replyId_eq x a)

end Sys2Proof.Machine

/-! PROOFS. Laws between the commands: 40_identifier.md, 41_frame_build.md, 42_rx_classify.md, and what a host sends
(70_reset_and_hazards.md R67). -/

namespace Sys2Proof.Machine

/-! ### ENCID and DECID -/

/-- Packing the fields of an identifier gives it back (40_identifier.md, round-trip law). -/
theorem txRecord_of_idFields (id : BitVec 29) (d : Payload) :
    (txRecord (id.extractLsb 28 24) (id.extractLsb 23 8) (id.extractLsb 7 0) d).txId = id :=
  append_idFields id

/-- Unpacking a packed identifier gives its fields back. -/
theorem rxRecord_of_txRecord (m : BitVec 5) (d : BitVec 16) (b : BitVec 8) (data : Payload)
    (isReply : BitVec 1) (addr : BitVec 8) :
    (rxRecord (txRecord m d b data).txId isReply addr).decMode = m ∧
      (rxRecord (txRecord m d b data).txId isReply addr).decData16 = d ∧
      (rxRecord (txRecord m d b data).txId isReply addr).decId8 = b :=
  ⟨txRecord_mode .., txRecord_data16 .., txRecord_id8 ..⟩

/-- DECID after ENCID gives the fields back, the mode masked to 5 bits. -/
theorem exec_encid_decid (m : BitVec 8) (d : BitVec 16) (b : BitVec 8) (s : State) :
    ∃ t u, exec (.encid m d b) s = .next t ∧ exec (.decid t.out.txId) t = .next u ∧
      u.out.decMode = m.extractLsb 4 0 ∧ u.out.decData16 = d ∧ u.out.decId8 = b :=
  ⟨_, _, exec_encid m d b s, exec_decid _ _, rxRecord_of_txRecord ..⟩

theorem extractLsb_setWidth_mode (m : BitVec 5) : (m.setWidth 8).extractLsb 4 0 = m := by
  revert m
  decide

theorem setWidth_extractLsb_mode (m : BitVec 8) : (m.extractLsb 4 0).setWidth 8 = m &&& 0x1F := by
  revert m
  decide

/-- Settles O9: both ways the fields are those of one packed identifier; a mode up to 31 is its own low five bits. -/
theorem identifierRoundTrip : Obligations.IdentifierRoundTrip := by
  refine ⟨fun m d b s hm => ?decode, fun id s => ⟨_, _, exec_decid id s, exec_encid _ _ _ _, ?encode⟩⟩
  case decode =>
    obtain ⟨t, u, hencid, hdecid, hmode, hfields⟩ := exec_encid_decid m d b s
    refine ⟨t, u, hencid, hdecid, ?_, hfields⟩
    rw [hmode, BitVec.extractLsb_toNat, Nat.shiftRight_zero]
    exact Nat.mod_eq_of_lt (by omega)
  case encode =>
    change (txRecord (((id.extractLsb 28 24).setWidth 8).extractLsb 4 0) (id.extractLsb 23 8)
      (id.extractLsb 7 0) Payload.zero).txId = id
    rw [extractLsb_setWidth_mode, txRecord_of_idFields]

theorem and_modeMask_ne {m : BitVec 8} (h : 32 ≤ m.toNat) : m &&& 0x1F ≠ m := by
  revert m
  decide

/-- Settles O10: ENCID reads the low five mode bits alone, which the mask keeps; a mode above 31 has others. -/
theorem encidMasksTheMode : Obligations.EncidMasksTheMode := by
  refine ⟨fun m d b s => exec_encid_congr_mode ?masked d b s, fun m d b s hm => ?raw⟩
  case masked => rw [← setWidth_extractLsb_mode, extractLsb_setWidth_mode]
  case raw =>
    obtain ⟨t, u, hencid, hdecid, hmode, _⟩ := exec_encid_decid m d b s
    have hreturned : u.out.decMode.setWidth 8 = m &&& 0x1F := by
      rw [hmode, setWidth_extractLsb_mode]
    exact ⟨t, u, hencid, hdecid, hreturned, hreturned ▸ and_modeMask_ne hm⟩

/-- Settles O11: the probe's mode is 0x00 and its `data16` is 0xFD00. -/
theorem encidOfProbeFieldsIsGetid : Obligations.EncidOfProbeFieldsIsGetid := by
  intro a s
  have hrecord : recordOf (.encid 0x00 0xFD00 a) = recordOf (.getid a) := by
    rw [recordOf, recordOf, masterData16_eq]
    rfl
  rw [exec_of_recordOf hrecord, exec_eq_drive]
  rfl

/-! ### The two WRITE_ONE commands -/

/-- Settles O15: the record is that of `exec_wrf32`, whose payload reads back as `payloadF32_f32` says. -/
theorem wrf32BuildsTheFloatWrite : Obligations.Wrf32BuildsTheFloatWrite :=
  ⟨fun _ hvalid hop => decodePorts_wrf32 hvalid hop, exec_wrf32,
    fun a x f s => ⟨_, exec_wrf32 a x f s, payloadF32_f32 x f⟩⟩

theorem sendOut_extFrame_inj {id jd : BitVec 29} {d e : Payload} :
    sendOut (extFrame id d) = sendOut (extFrame jd e) ↔ id = jd ∧ d = e := by
  constructor
  · intro h
    exact ⟨congrArg Out.txId h, congrArg Out.txData h⟩
  · rintro ⟨rfl, rfl⟩
    rfl

theorem drive_inj {s : State} {o r : Out} :
    (.next (s.drive o) : Host.Outcome State Fault Refusal) = .next (s.drive r) ↔ o = r := by
  constructor
  · intro h
    injection h with hdrive
    exact congrArg State.out hdrive
  · rintro rfl
    rfl

theorem targetId_inj {k : FrameKind} (hk : k.maskBits = 0x1FFFFF00) {a c : BitVec 8} :
    targetId k a = targetId k c ↔ a = c := by
  constructor
  · intro h
    obtain ⟨_, ha⟩ := (targetId_eq_iff hk).mp h
    obtain ⟨_, hc⟩ := (targetId_eq_iff hk).mp (rfl : targetId k c = _)
    exact ha.symm.trans hc
  · rintro rfl
    rfl

theorem payloadF32_inj {x y : BitVec 16} {f g : BitVec 32} :
    payloadF32 x f = payloadF32 y g ↔ y = x ∧ g = f := by
  rw [payloadF32_eq_iff, payloadF32_index, payloadF32_f32]
  exact and_iff_right rfl

/-- Settles O17: both commands build an identifier of one pattern, which has the target in its low byte, and the byte
payload is the float payload of the zero-extended value. -/
theorem byteWriteIsAFloatWriteOnlyOfItsZeroExtension :
    Obligations.ByteWriteIsAFloatWriteOnlyOfItsZeroExtension := by
  intro a c x y v f s
  have hid : targetId .writeOneU8 a = targetId .writeOneF32 a := rfl
  rw [exec_wru8, exec_wrf32, drive_inj, sendOut_extFrame_inj, hid, targetId_inj rfl,
    payloadU8_eq_payloadF32, payloadF32_inj, @eq_comm _ y]

/-! ### Rows and builders -/

/-- A command that builds a row's identifiers builds exactly the ones the row admits (30_encoding.md R43). -/
theorem admits_iff_exec_target {k : FrameKind} (hk : k.maskBits = 0x1FFFFF00)
    {command : BitVec 8 → Instr} {d : Payload} {s : State}
    (hexec : ∀ a, exec (command a) s = .next (s.drive (sendOut (extFrame (targetId k a) d))))
    (id : BitVec 29) :
    k.admits id = true ↔ ∃ a t, exec (command a) s = .next t ∧ t.out.txId = id := by
  constructor
  · intro hid
    exact ⟨byteAt id 0, _, hexec _, (targetId_eq_iff hk).mpr ⟨hid, rfl⟩⟩
  · rintro ⟨a, t, ht, rfl⟩
    rw [hexec] at ht
    cases ht
    obtain ⟨hadmits, _⟩ := (targetId_eq_iff hk).mp (rfl : targetId k a = _)
    exact hadmits

theorem admits_iff_exec_setid (id : BitVec 29) (s : State) :
    FrameKind.setId.admits id = true ↔
      ∃ c n t, exec (.setid c n) s = .next t ∧ t.out.txId = id := by
  constructor
  · intro hid
    exact ⟨byteAt id 0, byteAt id 2, _, exec_setid _ _ s, setIdId_eq_iff.mpr ⟨hid, rfl, rfl⟩⟩
  · rintro ⟨c, n, t, ht, rfl⟩
    rw [exec_setid] at ht
    cases ht
    obtain ⟨hadmits, _⟩ := setIdId_eq_iff.mp (rfl : setIdId n c = _)
    exact hadmits

theorem classifyRecord_reply_iff {e : BitVec 1} {l : BitVec 4} {id : BitVec 29} :
    (classifyRecord e l id).rxIsReply = 1 ↔
      e = 1 ∧ l = 8 ∧ id.extractLsb 28 24 = 0x00#5 ∧ id.extractLsb 7 0 = 0xFE#8 := by
  unfold classifyRecord
  split
  case isTrue hreply => exact iff_of_true rfl hreply
  case isFalse hreply => exact iff_of_false (by simp [rxRecord]) hreply

theorem classifyRecord_not_reply_fields {e : BitVec 1} {l : BitVec 4} {id : BitVec 29}
    (h : ¬(e = 1 ∧ l = 8 ∧ id.extractLsb 28 24 = 0x00#5 ∧ id.extractLsb 7 0 = 0xFE#8)) :
    (classifyRecord e l id).rxIsReply = 0 ∧ (classifyRecord e l id).rxAddr = 0xFF := by
  rw [classifyRecord, if_neg h]
  exact ⟨rfl, rfl⟩

theorem classify_reply_iff_admits (e : BitVec 1) (l : BitVec 4) (id : BitVec 29) (s : State) :
    (e = 1 ∧ l = 8 ∧ FrameKind.getIdReply.admits id = true) ↔
      ∃ t, exec (.classify e l id) s = .next t ∧ t.out.rxIsReply = 1 := by
  rw [admits_getIdReply_iff, ← classifyRecord_reply_iff]
  constructor
  · exact fun h => ⟨_, exec_classify e l id s, h⟩
  · rintro ⟨t, ht, hreply⟩
    rw [exec_classify] at ht
    cases ht
    exact hreply

/-- `FrameKind.admits` is the comparison `id & mask == match` (30_encoding.md R43). -/
theorem admits_iff (k : FrameKind) (id : BitVec 29) :
    k.admits id = true ↔ id &&& k.maskBits = k.matchBits := beq_iff_eq

/-- Settles O26: each builder writes its row's pattern with the operands on the free bits, and an admitted identifier
is built from the bytes it has there. -/
theorem buildersProduceExactlyTheirPatterns : Obligations.BuildersProduceExactlyTheirPatterns := by
  refine ⟨fun id s => ?_, fun id s => ?_, fun id s => ?_, fun id x f s => ?_, fun id x v s => ?_,
    fun e l id s => ?_⟩
  · exact (admits_iff .getIdProbe id).symm.trans
      (admits_iff_exec_target rfl (fun a => exec_getid a s) id)
  · exact (admits_iff .setId id).symm.trans (admits_iff_exec_setid id s)
  · exact (admits_iff .runEnable id).symm.trans
      (admits_iff_exec_target rfl (fun a => exec_runen a s) id)
  · exact (admits_iff .writeOneF32 id).symm.trans
      (admits_iff_exec_target rfl (fun a => exec_wrf32 a x f s) id)
  · exact (admits_iff .writeOneU8 id).symm.trans
      (admits_iff_exec_target rfl (fun a => exec_wru8 a x v s) id)
  · rw [← classify_reply_iff_admits, admits_iff]
    rfl

/-! ### Rows that overlap -/

/-- Every row fixes the whole mode (30_encoding.md R43). -/
theorem mode_of_admits {k : FrameKind} {id : BitVec 29} (h : k.admits id = true) :
    id.extractLsb 28 24 = k.matchBits.extractLsb 28 24 := by
  have htop : k.maskBits.extractLsb 28 24 = BitVec.allOnes 5 := by cases k <;> rfl
  have hmode := congrArg (BitVec.extractLsb 28 24) ((admits_iff k id).mp h)
  rw [BitVec.extractLsb_and, htop, BitVec.and_allOnes] at hmode
  exact hmode

/-- Two rows have one mode only as the two WRITE_ONE kinds, or as probe and reply. -/
theorem rows_of_mode_eq {k j : FrameKind} (hne : k ≠ j)
    (hmode : k.matchBits.extractLsb 28 24 = j.matchBits.extractLsb 28 24) :
    (k = .writeOneF32 ∧ j = .writeOneU8 ∨ k = .writeOneU8 ∧ j = .writeOneF32) ∨
      (k = .getIdProbe ∧ j = .getIdReply ∨ k = .getIdReply ∧ j = .getIdProbe) := by
  revert hne hmode
  cases k <;> cases j <;> decide

/-- Both WRITE_ONE rows admit `12 FD 00 tt` (30_encoding.md R42). -/
theorem admits_both_writeOne_iff (id : BitVec 29) :
    (FrameKind.writeOneF32.admits id = true ∧ FrameKind.writeOneU8.admits id = true) ↔
      id.extractLsb 28 8 = 0x12FD00#21 := by
  have hsame : FrameKind.writeOneU8.admits id = FrameKind.writeOneF32.admits id := rfl
  rw [hsame, and_self]
  exact admits_iff_of_targetMask rfl

/-- A probe's identifier is a reply's only at target 0xFE (30_encoding.md R43). -/
theorem admits_probe_and_reply_iff (id : BitVec 29) :
    (FrameKind.getIdProbe.admits id = true ∧ FrameKind.getIdReply.admits id = true) ↔
      id = 0x00FD00FE := by
  constructor
  · rintro ⟨hprobe, hreply⟩
    obtain ⟨_, hmarker⟩ := admits_getIdReply_iff.mp hreply
    exact ((targetId_eq_iff rfl).mpr ⟨hprobe, hmarker⟩).symm
  · rintro rfl
    decide

/-- Settles O27: rows that admit one identifier have one mode, which leaves two pairs of rows. -/
theorem rowsOverlapOnlyWhereTheSpecSays : Obligations.RowsOverlapOnlyWhereTheSpecSays := by
  intro k j id hne
  constructor
  · rintro ⟨hk, hj⟩
    rcases rows_of_mode_eq hne ((mode_of_admits hk).symm.trans (mode_of_admits hj)) with hpair | hpair
    · refine .inl ⟨hpair, (admits_both_writeOne_iff id).mp ?_⟩
      rcases hpair with ⟨rfl, rfl⟩ | ⟨rfl, rfl⟩
      · exact ⟨hk, hj⟩
      · exact ⟨hj, hk⟩
    · refine .inr ⟨hpair, (admits_probe_and_reply_iff id).mp ?_⟩
      rcases hpair with ⟨rfl, rfl⟩ | ⟨rfl, rfl⟩
      · exact ⟨hk, hj⟩
      · exact ⟨hj, hk⟩
  · rintro (⟨⟨rfl, rfl⟩ | ⟨rfl, rfl⟩, hid⟩ | ⟨⟨rfl, rfl⟩ | ⟨rfl, rfl⟩, hid⟩)
    · exact (admits_both_writeOne_iff id).mpr hid
    · exact ((admits_both_writeOne_iff id).mpr hid).symm
    · exact (admits_probe_and_reply_iff id).mpr hid
    · exact ((admits_probe_and_reply_iff id).mpr hid).symm

/-! ### CLASSIFY -/

/-- Settles O20: the reply identifiers are those of the reply row; a missing condition leaves the classification at O0;
`codec` does not read the payload ports. -/
theorem classifyChecksNothingElse : Obligations.ClassifyChecksNothingElse := by
  refine ⟨fun x a s => ⟨_, exec_classify_replyFields x a s, classifiedOut_replyId x a⟩,
    fun e l id s hl => ⟨_, exec_classify e l id s, ?length⟩, fun l id s => ⟨_, exec_classify 0 l id s, ?standard⟩,
    fun p d q s hq => ⟨_, _, step_ports_eq_codec hq, step_ports_eq_codec rfl, rfl⟩⟩
  case length => exact classifyRecord_not_reply_fields fun ⟨_, hlen, _⟩ => hl hlen
  case standard => exact classifyRecord_not_reply_fields fun ⟨hext, _⟩ => absurd hext (by decide)

/-- Settles O21: either way the record is DECID's but for the two classification fields. -/
theorem classifyDecodesAsDecidDoes : Obligations.ClassifyDecodesAsDecidDoes := by
  refine fun e l id s => ⟨_, _, exec_eq_drive (.classify e l id) s, exec_eq_drive (.decid id) s, ?_⟩
  rw [drive_out, drive_out, recordOf, recordOf]
  rcases classifiedOut_cases e l id with ⟨_, hout⟩ | ⟨_, hout⟩
  · rw [hout]
    rfl
  · rw [hout]
    rfl

/-! ### What a host sends (70_reset_and_hazards.md R67) -/

theorem sent_isSome_iff (o : Out) : o.sent.isSome = true ↔ o.txValid = 1 := by
  unfold Out.sent
  split
  case isTrue hvalid => exact iff_of_true rfl hvalid
  case isFalse hvalid => exact iff_of_false (by decide) hvalid

/-- Settles O29: `codec` puts out a builder's frame, ENCID's, or none (`codec_tx_cases`). -/
theorem framesAreSentForBuildersAlone : Obligations.FramesAreSentForBuildersAlone := by
  intro s p q hq
  refine ⟨_, step_ports_eq_codec hq, ?_⟩
  rw [sent_isSome_iff]
  rcases codec_tx_cases p with ⟨hbuilds, m, _, d, b, data, hout⟩ | ⟨hvalid, hop, hout⟩ |
    ⟨hbuilds, hencid, hnone⟩
  · obtain ⟨hvalid, _⟩ := id hbuilds
    exact iff_of_true (by rw [hout]; rfl) ⟨hvalid, .inr hbuilds⟩
  · exact iff_of_true (by rw [hout]; rfl) ⟨hvalid, .inl hop⟩
  · refine iff_of_false (by rw [hnone]; decide) ?_
    rintro ⟨hvalid, hop | hb⟩
    · exact hencid ⟨hvalid, hop⟩
    · exact hbuilds hb

/-- Every builder's frame is to the address on `addr_in` (41_frame_build.md R50 to R54). -/
theorem codec_of_builds {p : Ports} (h : p.builds) :
    ∃ m d data, codec p = txRecord m d p.addrIn data := by
  obtain ⟨hvalid, hlo, hhi⟩ := h
  unfold codec
  rw [if_neg (by simp [hvalid])]
  generalize p.cmdOp.toNat = op at hlo hhi ⊢
  match op with
  | 2 | 3 | 4 | 5 | 6 => exact ⟨_, _, _, rfl⟩
  | 0 | 1 | _ + 7 => omega

/-- Settles O30: a kept address is the `id8` of the frame, and no address up to 127 is the marker of a reply. -/
theorem keptAddressesNeverLookLikeReplies : Obligations.KeptAddressesNeverLookLikeReplies := by
  intro s p q hq hbuilds hkept
  obtain ⟨m, d, data, hout⟩ := codec_of_builds hbuilds
  obtain ⟨haddr, _⟩ := hkept
  have hid8 : (txRecord m d p.addrIn data).txId.extractLsb 7 0 = p.addrIn := txRecord_id8 ..
  refine ⟨_, ⟨1, 8, (txRecord m d p.addrIn data).txId, data⟩, _, step_ports_eq_codec hq, ?sent, ?low,
    exec_classify _ _ _ _, ?unseen⟩
  case sent => rw [hout]; rfl
  case low => rw [hid8]; exact haddr hbuilds
  case unseen =>
    have hmarker : p.addrIn ≠ 0xFE := fun h => absurd (haddr hbuilds) (by rw [h]; decide)
    obtain ⟨hreply, _⟩ := classifyRecord_not_reply_fields (e := 1) (l := 8)
      (id := (txRecord m d p.addrIn data).txId)
      fun ⟨_, _, _, h⟩ => hmarker (hid8.symm.trans h)
    rw [drive_out, Out.discovered, hreply]
    rfl

end Sys2Proof.Machine

/-! PROOFS. Assembler lines (30_encoding.md R45) and words of the opcode table. -/

namespace Sys2Proof.Machine

/-! ### Numbers on ports -/

@[simp] theorem onPort_toNat {w : Nat} (v : BitVec w) : onPort w v.toNat = some v := by
  rw [onPort, if_pos v.isLt, BitVec.ofNat_toNat, BitVec.setWidth_eq]

/-- A number is presented exactly when it fits its port (10_state.md R13). -/
@[simp] theorem onPort_isSome {w n : Nat} : (onPort w n).isSome = true ↔ n < 2 ^ w := by
  unfold onPort
  split
  case isTrue h => exact iff_of_true rfl h
  case isFalse h => exact iff_of_false Bool.false_ne_true h

/-- A line other than `IDLE` stands for its instruction's transaction. -/
theorem assemble_of_instr {l : AsmLine} {i : Instr} (h : l.instr = some i) :
    l.assemble = some (encode i) := by
  cases l with
  | idle => cases h
  | encid | decid | getid | setid | runen | wrf32 | wru8 | classify | rsvd =>
    exact congrArg (Option.map encode) h

/-- Settles O45: each number is on its port the operand it was (`onPort_toNat`), so the line names its instruction. -/
theorem linesAssembleToTheirInstructions : Obligations.LinesAssembleToTheirInstructions := by
  refine ⟨fun m d b => assemble_of_instr ?_, fun id => assemble_of_instr ?_,
    fun a => assemble_of_instr ?_, fun c n => assemble_of_instr ?_, fun a => assemble_of_instr ?_,
    fun a x f => assemble_of_instr ?_, fun a x v => assemble_of_instr ?_,
    fun e n id => assemble_of_instr ?_, fun op hop => assemble_of_instr ?reserved, rfl, rfl⟩
  case reserved => simp [AsmLine.instr, hop]
  all_goals simp [AsmLine.instr]

/-! ### When a line has an instruction: one number per operand, each on its port -/

theorem isSome_bind_onPort {α : Type} {w : Nat} {f : BitVec w → Option α} {P : Prop}
    (h : ∀ v, (f v).isSome = true ↔ P) (n : Nat) :
    ((onPort w n).bind f).isSome = true ↔ n < 2 ^ w ∧ P := by
  rw [← onPort_isSome]
  cases onPort w n with
  | none => exact iff_of_false Bool.false_ne_true fun ⟨hsome, _⟩ => Bool.false_ne_true hsome
  | some v => exact (h v).trans (and_iff_right rfl).symm

theorem isSome_oneOperand {α : Type} {w : Nat} (f : BitVec w → α) (n : Nat) :
    ((onPort w n).bind fun v => some (f v)).isSome = true ↔ n < 2 ^ w :=
  (isSome_bind_onPort (fun _ => iff_of_true rfl trivial) n).trans (and_iff_left trivial)

theorem isSome_twoOperands {α : Type} {w₁ w₂ : Nat} (f : BitVec w₁ → BitVec w₂ → α) (n₁ n₂ : Nat) :
    ((onPort w₁ n₁).bind fun v₁ => (onPort w₂ n₂).bind fun v₂ => some (f v₁ v₂)).isSome = true ↔
      n₁ < 2 ^ w₁ ∧ n₂ < 2 ^ w₂ :=
  isSome_bind_onPort (fun v₁ => isSome_oneOperand (f v₁) n₂) n₁

theorem isSome_threeOperands {α : Type} {w₁ w₂ w₃ : Nat} (f : BitVec w₁ → BitVec w₂ → BitVec w₃ → α)
    (n₁ n₂ n₃ : Nat) :
    ((onPort w₁ n₁).bind fun v₁ => (onPort w₂ n₂).bind fun v₂ =>
        (onPort w₃ n₃).bind fun v₃ => some (f v₁ v₂ v₃)).isSome = true ↔
      n₁ < 2 ^ w₁ ∧ n₂ < 2 ^ w₂ ∧ n₃ < 2 ^ w₃ :=
  isSome_bind_onPort (fun v₁ => isSome_twoOperands (f v₁) n₂ n₃) n₁

theorem instr_rsvd_isSome (op : Nat) :
    (AsmLine.rsvd op).instr.isSome = true ↔ 8 ≤ op ∧ op < 2 ^ 4 := by
  rw [AsmLine.instr]
  by_cases h : 8 ≤ op
  · rw [if_pos h]
    exact (isSome_oneOperand Instr.rsvd op).trans (and_iff_right h).symm
  · rw [if_neg h]
    exact iff_of_false Bool.false_ne_true fun ⟨hop, _⟩ => h hop

/-- A line other than `IDLE` is assembled exactly when it has an instruction. -/
theorem assemble_isSome_iff {l : AsmLine} (hl : l ≠ .idle) :
    l.assemble.isSome = true ↔ l.instr.isSome = true := by
  cases l with
  | idle => exact absurd rfl hl
  | encid | decid | getid | setid | runen | wrf32 | wru8 | classify | rsvd =>
    exact iff_of_eq (congrArg (· = true) Option.isSome_map)

/-- Settles O46: a line has an instruction exactly when each of its numbers is on its port, and an `RSVD` line besides
only from op 8 on. -/
theorem widerNumbersCannotBePresented : Obligations.WiderNumbersCannotBePresented := by
  have hline {l : AsmLine} {P : Prop} (h : l.instr.isSome = true ↔ P) (hl : l ≠ .idle) :
      l.assemble.isSome = true ↔ P := (assemble_isSome_iff hl).trans h
  exact ⟨fun m d b => hline (isSome_threeOperands Instr.encid m d b) nofun,
    fun id => hline (isSome_oneOperand Instr.decid id) nofun,
    fun a => hline (isSome_oneOperand Instr.getid a) nofun,
    fun c n => hline (isSome_twoOperands Instr.setid c n) nofun,
    fun a => hline (isSome_oneOperand Instr.runen a) nofun,
    fun a x f => hline (isSome_threeOperands Instr.wrf32 a x f) nofun,
    fun a x v => hline (isSome_threeOperands Instr.wru8 a x v) nofun,
    fun e n id => hline (isSome_threeOperands Instr.classify e n id) nofun,
    fun op => hline (instr_rsvd_isSome op) nofun⟩

/-! ### Words of the opcode table -/

/-- A word that fits its field and stands for an instruction's encoding decodes to that instruction. -/
theorem decodeTableWord_of_encode {n w : Nat} {i : Instr} (hwf : WellFormed i)
    (hw : if n ≤ 8 then w < 2 ^ 4 else w < 2 ^ 29) (hi : tableTransaction n w = encode i) :
    decodeTableWord n w = some i := by
  rw [decodeTableWord, if_pos hw, hi, decodeOfEncodeIsTheInstruction i hwf]
  rfl

/-- Settles O42: each word's transaction is the encoding of the instruction it stands for. -/
theorem writtenOutWordsDecode : Obligations.WrittenOutWordsDecode :=
  ⟨decodeTableWord_of_encode rfl (by decide) rfl, decodeTableWord_of_encode rfl (by decide) rfl,
    decodeTableWord_of_encode rfl (by decide) rfl, decodeTableWord_of_encode rfl (by decide) rfl,
    decodeTableWord_of_encode rfl (by decide) (by decide),
    decodeTableWord_of_encode rfl (by decide) (by decide),
    decodeTableWord_of_encode rfl (by decide) (by decide)⟩

end Sys2Proof.Machine
